-- ==== Sys2Proof/Word.lean ====
section
/-! DEFINITION. The word types of the Zwibor (R4, R28, R92): bytes, 32-bit instruction words, 64-bit
registers and addresses, 48-bit instruction addresses. -/

-- One thread elaborates: the stacks of many at once can exceed the memory limit of the check.
set_option Elab.async false

namespace Sys2Proof

/-- A byte of memory. -/
abbrev Byte := BitVec 8

/-- A 64-bit register value or address. -/
abbrev Word := BitVec 64

/-- A 32-bit instruction word, or one lane of a vector register. -/
abbrev Word32 := BitVec 32

/-- An instruction address: 48 bits (the packet's PC field, R67). -/
abbrev Addr48 := BitVec 48

end Sys2Proof
end

