-- ==== Sys2Proof/Machine/Bits.lean ====
section
/-! DEFINITION. Bit fields, sign extension and byte order (R4, R119), shared by the decoder's users and
by every meaning. -/

namespace Sys2Proof.Machine

open Sys2Proof

/-- `low(v, n)` of R119, as a number. -/
def lowN (v : Nat) (n : Nat) : Nat := v % 2 ^ n

/-- `sext(v, n)` of R119: bits [n−1:0] of v extended to 64 bits. -/
def sextW (v : Nat) (n : Nat) : Word :=
  let x := v % 2 ^ n
  if 2 ^ (n - 1) ≤ x then BitVec.ofNat 64 (x + (2 ^ 64 - 2 ^ n)) else BitVec.ofNat 64 x

/-- The low half of a word, sign-extended: how every W form ends (R97, R120). -/
def sextLow (v : BitVec 32) : Word := v.signExtend 64

/-- The low 32 bits. -/
def lo32 (v : Word) : BitVec 32 := v.extractLsb' 0 32

/-- The high 32 bits. -/
def hi32 (v : Word) : BitVec 32 := v.extractLsb' 32 32

/-- Field [lo+n−1 : lo] of a 64-bit value, as a number. -/
def bits (v : Word) (lo n : Nat) : Nat := v.toNat / 2 ^ lo % 2 ^ n

/-- One bit of a 64-bit value. -/
def bit (v : Word) (i : Nat) : Bool := v.getLsbD i

/-- The signed value of an n-bit field held in a number. -/
def signedOf (v : Nat) (n : Nat) : Int :=
  if 2 ^ (n - 1) ≤ v % 2 ^ n then (v % 2 ^ n : Int) - 2 ^ n else (v % 2 ^ n : Int)

/-- An integer reduced to 64 bits. -/
def wordOfInt (z : Int) : Word := BitVec.ofInt 64 z

/-- The number that bytes in memory order make, little-endian. -/
def leNat : List Byte → Nat
  | [] => 0
  | b :: rest => b.toNat + 256 * leNat rest

/-- The n bytes of a number, little-endian. -/
def leBytes : Nat → Nat → List Byte
  | 0, _ => []
  | n + 1, v => BitVec.ofNat 8 v :: leBytes n (v / 256)

/-- Number of one bits among the low n bits. -/
def popNat : Nat → Nat → Nat
  | 0, _ => 0
  | n + 1, v => v % 2 + popNat n (v / 2)

/-- Number of zero bits above the highest one bit of an n-bit value; n for 0 (R131). -/
def clzNat : Nat → Nat → Nat
  | 0, _ => 0
  | n + 1, v => if 2 ^ n ≤ v % 2 ^ (n + 1) then 0 else 1 + clzNat n v

/-- Number of zero bits below the lowest one bit of an n-bit value; n for 0 (R131). -/
def ctzNat : Nat → Nat → Nat
  | 0, _ => 0
  | n + 1, v => if v % 2 = 1 then 0 else 1 + ctzNat n (v / 2)

/-- The n low bits in reverse order (R131). -/
def revNat : Nat → Nat → Nat
  | 0, _ => 0
  | n + 1, v => v % 2 * 2 ^ n + revNat n (v / 2)

/-- Number of significant bits; 0 for 0 (R137). -/
def bitlen (v : Nat) : Nat := if v = 0 then 0 else v.log2 + 1

/-- The k-th set bit (from 0) of an n-bit mask, scanning from bit i. -/
def nthBit : Nat → Nat → Nat → Nat → Option Nat
  | 0, _, _, _ => none
  | n + 1, v, i, k =>
    if v % 2 = 1 then (if k = 0 then some i else nthBit n (v / 2) (i + 1) (k - 1))
    else nthBit n (v / 2) (i + 1) k

/-- Sequence q is greater than s (R69). -/
def seqGt (q s : BitVec 8) : Bool := let d := (q - s).toNat; 1 ≤ d && d ≤ 127

end Sys2Proof.Machine
end

