-- ==== Sys2Proof/Config.lean ====
section
/-! DEFINITION. What the spec leaves to the part or leaves open: the free values, each an opaque
constant with no body (nothing in Lean can compute one), and the sizes that R23, R53 and R241 fix. -/

namespace Sys2Proof.Config

/-- Free value (log 2): the delay field that the n-th reply carries when the schedule of the machine
itself picks the reply to deliver (R401 gives its meaning; contention decides its value). -/
opaque freeDelay : Nat → BitVec 16

/-- Free values (log 3; R403 gives no figures): the dynamic energy in pJ that die d charges to a launch in its n-th
interval, and the die's idle and leakage energy in that interval. -/
opaque freeEnergy : Nat → Nat → Nat → Nat
opaque freeLeak : Nat → Nat → Nat

/-- Free value (log 4): the verdict of the root of trust on the staged image, as a BOOT.ERR code
(R386; the keys are fused and are not in the spec). -/
opaque freeVerdict : List (Nat × BitVec 64) → BitVec 4

/-- Free values (log 8): what the image brings up that the spec leaves to firmware (R374, R382, R386, R391): whole or
partitioned mode, the firmware's entry, its code as bytes of physical global memory, the pages it maps (partition and
address space, whether of 32 MiB, page number, frame number, then from bit 0 read, write and execute permission, a frame in
host memory, and whether the host may keep copies of its lines), the placement table of address space 0 of a partition
(base, size, granularity, dies, stack and travel flags from bit 0), the device's own number, the peer table, and the current
limit of a die. -/
opaque freeWhole : List (Nat × BitVec 64) → Bool
opaque freeEntry : List (Nat × BitVec 64) → BitVec 48
opaque freeCode : List (Nat × BitVec 64) → List (Nat × BitVec 8)
opaque freePages : List (Nat × BitVec 64) → List (Nat × Bool × Nat × Nat × BitVec 5)
opaque freeTable : List (Nat × BitVec 64) → Nat → List (Nat × Nat × Nat × BitVec 8 × BitVec 2)
opaque freeDevice : List (Nat × BitVec 64) → BitVec 17
opaque freePeers : List (Nat × BitVec 64) → List (Nat × List Nat)
opaque freeLimit : List (Nat × BitVec 64) → Nat → Nat

/-- Free value (log 9): the kind code of the rollover-complete marker among flits (R383, R384 give no codes). -/
opaque freeMarker : BitVec 3

/-- Free value (log 9): the kind code of a request for a replay, whose acknowledged sequence names the last flit that arrived well. -/
opaque freeAskKind : BitVec 3

/-- Free value (log 30): the stage or boundary of a garnering, shadowing or landing, for the core's cycle and the record's place among
those that its encoder holds (R397). -/
opaque freePlace : Nat → Nat → BitVec 4

/-- Free value (log 7): the home core of a peer device that the n-th access of a copy to that device reaches (R401): it is outside this
package. -/
opaque freePeerHome : Nat → Nat

/-- Free value (log 101): the unit that is the next to be ready, at the n-th time that one may be (R386: in no promised order). -/
opaque freeUnit : Nat → Nat

/-- Free value (log 5): what a host reads at a BAR 0 offset that no rule gives a register. -/
opaque freeBar : Nat → BitVec 64

/-- Free value (log 10): the code that FWFAULT shows for a thermal trip (R390 gives none). -/
opaque freeTrip : BitVec 6

/-- Free value (log 4): the signed report that answers an SPDM request (R387). -/
opaque freeReport : BitVec 64 → BitVec 64

/-- Free value (log 5): what DBGDATA reads for an item that R392 does not define. -/
opaque freeDebug : Nat → BitVec 64

/-- Free value (log 7): the byte that a peer device holds at an address when a copy reads it, at the n-th such read;
the peer is outside this package (R382). -/
opaque freePeerByte : Nat → Nat → Nat → BitVec 8

/-- Free value (log 92): g15 of a thread without a stack slot when a task of a launch with a stack region is bound to it, for the
thread's name and the task's entry (R44 gives the top of its slot, and it has none). -/
opaque freeTop : Nat → BitVec 48 → BitVec 64

/-- Free value (log 80): the partition whose memory window firmware registered with a peer for port n in partitioned
mode (R382 leaves the registration to firmware). -/
opaque freePeerPart : Nat → Nat

/-- Landing entries per context (R23). -/
def landingMax : Nat := 12
/-- Uncertified packets per context (R63). -/
def pipeMax : Nat := 64
/-- Limit of UNACK (R177). -/
def unackMax : Nat := 32
/-- Limit of OUTLD (R177). -/
def outldMax : Nat := 16
/-- Reservations held by one thread (R241). -/
def resvMax : Nat := 16
/-- Wait table of a home core (R241). -/
def waitMax : Nat := 64
/-- Reservation table of a slice (R241). -/
def resvTabMax : Nat := 64
/-- Watch table of a core (R23, R191). -/
def watchMax : Nat := 32
/-- Records held by a completion lane (R297, R306, R326). -/
def laneMax : Nat := 8
/-- Vector queue of a core (R281). -/
def vqueueMax : Nat := 16
/-- Copy commands in flight per core (R306). -/
def copyMax : Nat := 8
/-- Commands in one matrix queue (R324). -/
def mqueueMax : Nat := 8
/-- Words in one neighbour port FIFO (R206). -/
def portMax : Nat := 4
/-- Arrival queue of a core (R53). -/
def arrivalMax : Nat := 8
/-- Thread-context cache of a core (R53). -/
def cacheMax : Nat := 32
/-- Spill records of a die (R53). -/
def spillMax : Nat := 32768
/-- Tasks in a die's ready queue (R43). -/
def readyMax : Nat := 4096
/-- Hardware entries of a core's ib store (R244). -/
def inboxMax : Nat := 64
/-- Entries of a timed lane (R361). -/
def timedMax : Nat := 256
/-- Lines of an L1 set, sets of an L1, and 256-byte lines of a slice, home lines and replicas together (R23, R25, R248). -/
def l1Ways : Nat := 4
def l1Sets : Nat := 512
def sliceMax : Nat := 1024
/-- 64-byte blocks of a cluster's instruction cache (R25). -/
def icacheMax : Nat := 2048
/-- Write-combining entries of a core (R237). -/
def wcbMax : Nat := 8
/-- Operations queued behind the divider's current one (R137). -/
def divQueueMax : Nat := 4
/-- Activity descriptors of a die (R334). -/
def actMax : Nat := 256
/-- Record slots of a die's sepia region (R337). -/
def sepiaMax : Nat := 262144
/-- Submitted blocks a partition's scheduler holds (R156). -/
def submitMax : Nat := 64
/-- Parity updates queued per slate group (R253). -/
def parityMax : Nat := 16
/-- Host messages queued per function (R381). -/
def hostMsgMax : Nat := 64
/-- Trace records the encoder holds (R397). -/
def traceMax : Nat := 64
/-- Trace events that the encoder accepts in a cycle (R397). -/
def traceRate : Nat := 4
/-- Flits a peer port keeps for replay (R383). -/
def replayMax : Nat := 1024

end Sys2Proof.Config
end

