-- ==== Sys2Proof/Syntax.lean ====
section
/-! DEFINITION. The instruction set of Vexser as data: one constructor of `Instr` per row of
spec/opcode_table.json. The first 209 rows are the 32-bit instruction words of R92 to R113; the other
149 are the device's own steps (events), which have no word: their arguments name what they act on
(a core number, a context id = core × 16 + context, a place in the list of messages in flight, …). -/

namespace Sys2Proof

/-- The four neighbour ports of R22. -/
inductive Dir where
  | north | east | south | west
  deriving DecidableEq, Repr

/-- The 5-bit register names of R95. -/
inductive Reg where
  | g (n : Fin 16)
  | zr | mq | vq | cq | ib
  | port (d : Dir)
  | ix (n : Fin 4)
  | wid | gt | pc
  deriving DecidableEq, Repr

/-- Access sizes of R10. -/
inductive Size where
  | b | h | w | d
  deriving DecidableEq, Repr

/-- Scopes of R32, each containing the one before it. -/
inductive Scope where
  | th | co | cl | di | pk | ho | pe | sy
  deriving DecidableEq, Repr

/-- Vector types of R10 and R279. -/
inductive VType where
  | f32 | f64 | bf16 | i32 | n32 | i64 | i16 | i8
  deriving DecidableEq, Repr

/-- One constructor per row of spec/opcode_table.json, in the table's order. -/
inductive Instr where
  /-- ADD (R122): Writes the 64-bit wrapped sum of slots a and b to d. -/
  | add (d a b : Reg)
  /-- ADDW (R122): Adds the low 32 bits of a and b and sign-extends the 32-bit sum into d. -/
  | addw (d a b : Reg)
  /-- SUB (R122): Writes the 64-bit wrapped difference a minus b to d. -/
  | sub (d a b : Reg)
  /-- SUBW (R122): Subtracts at 32 bits and sign-extends the result into d. -/
  | subw (d a b : Reg)
  /-- AND (R122): Writes the bitwise AND of a and b to d. -/
  | andR (d a b : Reg)
  /-- OR (R122): Writes the bitwise OR of a and b to d. -/
  | orR (d a b : Reg)
  /-- XOR (R122): Writes the bitwise XOR of a and b to d. -/
  | xorR (d a b : Reg)
  /-- ANDN (R122): Writes a AND NOT b to d. -/
  | andn (d a b : Reg)
  /-- ORN (R122): Writes a OR NOT b to d. -/
  | orn (d a b : Reg)
  /-- SHL (R123): Shifts a left by the unsigned value of b, giving 0 for counts of 64 or more. -/
  | shl (d a b : Reg)
  /-- SHLW (R123): Shifts the low 32 bits of a left at 32 bits and sign-extends the result. -/
  | shlw (d a b : Reg)
  /-- SHR (R123): Shifts a right logically by the unsigned value of b. -/
  | shr (d a b : Reg)
  /-- SHRW (R123): Shifts the low 32 bits of a right logically and sign-extends the result. -/
  | shrw (d a b : Reg)
  /-- SHA (R123): Shifts a right arithmetically by min(b, 63). -/
  | sha (d a b : Reg)
  /-- SHAW (R123): Shifts the low 32 bits of a right arithmetically at 32 bits. -/
  | shaw (d a b : Reg)
  /-- ROTL (R123): Rotates a left by b mod 64. -/
  | rotl (d a b : Reg)
  /-- ROTLW (R123): Rotates the low 32 bits of a left by b mod 32 and sign-extends the result. -/
  | rotlw (d a b : Reg)
  /-- SHLI (R124): Shifts a left by the immediate count 32 × mod[1] + b. -/
  | shli (d a : Reg) (n : BitVec 5) (h : BitVec 1)
  /-- SHLIW (R124): Shifts at 32 bits by an immediate count of 0 to 31, as SHLW does. -/
  | shliw (d a : Reg) (n : BitVec 5)
  /-- SHRI (R124): Shifts a right logically by an immediate count. -/
  | shri (d a : Reg) (n : BitVec 5) (h : BitVec 1)
  /-- SHRIW (R124): Shifts right logically at 32 bits by an immediate count. -/
  | shriw (d a : Reg) (n : BitVec 5)
  /-- SHAI (R124): Shifts a right arithmetically by an immediate count. -/
  | shai (d a : Reg) (n : BitVec 5) (h : BitVec 1)
  /-- SHAIW (R124): Shifts right arithmetically at 32 bits by an immediate count. -/
  | shaiw (d a : Reg) (n : BitVec 5)
  /-- SLT (R125): Writes 1 if a < b signed, else 0. -/
  | slt (d a b : Reg)
  /-- SLTN (R125): Writes 1 if a < b unsigned, else 0. -/
  | sltn (d a b : Reg)
  /-- SEQ (R125): Writes 1 if a equals b, else 0. -/
  | seq (d a b : Reg)
  /-- SNE (R125): Writes 1 if a differs from b, else 0. -/
  | sne (d a b : Reg)
  /-- MIN (R125): Writes the smaller of a and b, signed. -/
  | min (d a b : Reg)
  /-- MAX (R125): Writes the larger of a and b, signed. -/
  | max (d a b : Reg)
  /-- MINN (R125): Writes the smaller of a and b, unsigned. -/
  | minn (d a b : Reg)
  /-- MAXN (R125): Writes the larger of a and b, unsigned. -/
  | maxn (d a b : Reg)
  /-- SEL (R126): Writes a if the old value of d is nonzero, else b. -/
  | sel (d a b : Reg)
  /-- SPA (R127): Composes a scratchpad address from a core number and an offset. -/
  | spa (d a b : Reg)
  /-- SPX (R127): Extracts the core field of a scratchpad address, or all ones. -/
  | spx (d a : Reg)
  /-- HOME (R128): Writes home_of of the address in a, or all ones when it has none. -/
  | home (d a : Reg)
  /-- MUL (R129): Writes the low 64 bits of a × b. -/
  | mul (d a b : Reg)
  /-- MULW (R129): Multiplies at 32 bits and sign-extends the result. -/
  | mulw (d a b : Reg)
  /-- MULH (R129): Writes the high half of the signed 128-bit product. -/
  | mulh (d a b : Reg)
  /-- MULHN (R129): Writes the high half of the unsigned 128-bit product. -/
  | mulhn (d a b : Reg)
  /-- DIV (R130): Signed division truncating toward zero, with the fixed results for zero and overflow. -/
  | div (d a b : Reg)
  /-- DIVW (R130): Signed 32-bit division with a sign-extended result. -/
  | divw (d a b : Reg)
  /-- DIVN (R130): Unsigned division; division by zero gives all ones. -/
  | divn (d a b : Reg)
  /-- DIVNW (R130): Unsigned 32-bit division with a sign-extended result. -/
  | divnw (d a b : Reg)
  /-- REM (R130): Signed remainder taking the sign of the dividend. -/
  | rem (d a b : Reg)
  /-- REMW (R130): Signed 32-bit remainder with a sign-extended result. -/
  | remw (d a b : Reg)
  /-- REMN (R130): Unsigned remainder; remainder by zero gives a. -/
  | remn (d a b : Reg)
  /-- REMNW (R130): Unsigned 32-bit remainder with a sign-extended result. -/
  | remnw (d a b : Reg)
  /-- CLZ (R131): Counts the zero bits above the highest one bit of a. -/
  | clz (d a : Reg)
  /-- CLZW (R131): Counts leading zeros of the low 32 bits of a. -/
  | clzw (d a : Reg)
  /-- CTZ (R131): Counts the zero bits below the lowest one bit of a. -/
  | ctz (d a : Reg)
  /-- CTZW (R131): Counts trailing zeros of the low 32 bits of a. -/
  | ctzw (d a : Reg)
  /-- POP (R131): Counts the one bits of a. -/
  | pop (d a : Reg)
  /-- POPW (R131): Counts the one bits of the low 32 bits of a. -/
  | popw (d a : Reg)
  /-- BREV (R131): Reverses the 64 bits of a. -/
  | brev (d a : Reg)
  /-- BREVW (R131): Reverses the low 32 bits of a and sign-extends. -/
  | brevw (d a : Reg)
  /-- BSWAP (R131): Reverses the 8 bytes of a. -/
  | bswap (d a : Reg)
  /-- BSWAPW (R131): Reverses the low 4 bytes of a and sign-extends. -/
  | bswapw (d a : Reg)
  /-- ADDI (R132): Adds a sign-extended 16-bit immediate to a. -/
  | addi (d a : Reg) (i : BitVec 16)
  /-- ANDI (R132): ANDs a with a zero-extended immediate. -/
  | andi (d a : Reg) (i : BitVec 16)
  /-- ORI (R132): ORs a with a zero-extended immediate. -/
  | ori (d a : Reg) (i : BitVec 16)
  /-- XORI (R132): XORs a with a zero-extended immediate. -/
  | xori (d a : Reg) (i : BitVec 16)
  /-- SLTI (R132): Writes 1 if a is less than the signed immediate. -/
  | slti (d a : Reg) (i : BitVec 16)
  /-- SLTNI (R132): Writes 1 if a is less than the zero-extended immediate, unsigned. -/
  | sltni (d a : Reg) (i : BitVec 16)
  /-- LI (R132): Writes the sign-extended immediate to d. -/
  | li (d : Reg) (i : BitVec 16)
  /-- LIH (R133): Writes the immediate into bits [31:16] of d and clears every other bit. -/
  | lih (d : Reg) (i : BitVec 16)
  /-- MULI (R129): Multiplies a by the sign-extended immediate. -/
  | muli (d a : Reg) (i : BitVec 16)
  /-- ADDIW (R132): Adds a signed immediate at 32 bits and sign-extends. -/
  | addiw (d a : Reg) (i : BitVec 16)
  /-- EXT (R134): Zero-extends the field of a at pos of length len. -/
  | ext (d a : Reg) (p l : BitVec 6)
  /-- EXTX (R134): Sign-extends the field of a at pos of length len. -/
  | extx (d a : Reg) (p l : BitVec 6)
  /-- INS (R134): Inserts the low len bits of a into d at pos. -/
  | ins (d a : Reg) (p l : BitVec 6)
  /-- BEQ (R140): Branches when a equals b. -/
  | beq (a b : Reg) (i : BitVec 16)
  /-- BNE (R140): Branches when a differs from b. -/
  | bne (a b : Reg) (i : BitVec 16)
  /-- BLT (R140): Branches when a < b, signed. -/
  | blt (a b : Reg) (i : BitVec 16)
  /-- BGE (R140): Branches when a ≥ b, signed. -/
  | bge (a b : Reg) (i : BitVec 16)
  /-- BLTN (R140): Branches when a < b, unsigned. -/
  | bltn (a b : Reg) (i : BitVec 16)
  /-- BGEN (R140): Branches when a ≥ b, unsigned. -/
  | bgen (a b : Reg) (i : BitVec 16)
  /-- J (R141): Jumps to PC + 4 × disp26. -/
  | j (i : BitVec 26)
  /-- JAL (R141): Jumps to PC + 4 × disp26 and writes PC + 4 to g14. -/
  | jal (i : BitVec 26)
  /-- JR (R142): Jumps to the checked address in slot a. -/
  | jr (a : Reg)
  /-- JALR (R142): Jumps to the address in a and writes PC + 4 to d. -/
  | jalr (d a : Reg)
  /-- ALIGN (R143): Holds the context before injection until its sibling contexts arrive or n cycles pass. -/
  | align (n : BitVec 16)
  /-- BSIG (R144): Opens a checked signature block with both expected values set to e. -/
  | bsig (e : BitVec 16)
  /-- BSIGT (R144): Sets the expected value of the taken end of the open block. -/
  | bsigt (e : BitVec 16)
  /-- NEST (R146): Loads a nest descriptor into the fetcher and claims the first chunk, or skips the body. -/
  | nest (a : Reg) (i : BitVec 16)
  /-- NEXT (R147): Advances the iteration fetcher, claiming a new chunk when needed. -/
  | next (i : BitVec 16)
  /-- LD (R180): Loads and zero-extends 1, 2, 4 or 8 bytes from the address a + disp. -/
  | ld (t a : Reg) (s : Size) (o : Bool) (c : Scope) (i : BitVec 10)
  /-- LDX (R180): Loads and sign-extends 1, 2 or 4 bytes. -/
  | ldx (t a : Reg) (s : Size) (o : Bool) (c : Scope) (i : BitVec 10)
  /-- ST (R180): Stores the low bytes of t at a + disp, posted to its home. -/
  | st (t a : Reg) (s : Size) (o : Bool) (c : Scope) (i : BitVec 10)
  /-- LDF (R184): Loads a word when full and leaves it empty or reserved. -/
  | ldf (t a : Reg) (o : Bool) (c : Scope) (i : BitVec 10)
  /-- STF (R184): Stores to an empty or reserved word and sets it full, serving its waiters. -/
  | stf (t a : Reg) (o : Bool) (c : Scope) (i : BitVec 10)
  /-- LDFF (R184): Loads a word once full and leaves it full. -/
  | ldff (t a : Reg) (o : Bool) (c : Scope) (i : BitVec 10)
  /-- FAA (R188): Atomically adds t to the word at a and returns the old value. -/
  | faa (t a : Reg) (s o : Bool) (c : Scope)
  /-- FXCH (R188): Atomically exchanges t with the word at a. -/
  | fxch (t a : Reg) (s o : Bool) (c : Scope)
  /-- FCAS (R188): Atomically replaces the word with t if it equals register t + 1. -/
  | fcas (t a : Reg) (s o : Bool) (c : Scope)
  /-- FMIN (R188): Atomically stores the signed minimum of the word and t. -/
  | fmin (t a : Reg) (s o : Bool) (c : Scope)
  /-- FMAX (R188): Atomically stores the signed maximum of the word and t. -/
  | fmax (t a : Reg) (s o : Bool) (c : Scope)
  /-- FAND (R188): Atomically ANDs t into the word. -/
  | fand (t a : Reg) (s o : Bool) (c : Scope)
  /-- FOR (R188): Atomically ORs t into the word. -/
  | forA (t a : Reg) (s o : Bool) (c : Scope)
  /-- FXOR (R188): Atomically XORs t into the word. -/
  | fxor (t a : Reg) (s o : Bool) (c : Scope)
  /-- WATCH (R191): Places a watch on the word at a in its home's watch table. -/
  | watch (a : Reg)
  /-- UNWATCH (R191): Removes the context's watch of the word at a. -/
  | unwatch (a : Reg)
  /-- WAITA (R193): Waits until the word at a differs from the value in d. -/
  | waita (d a : Reg)
  /-- PREF (R194): Asks for the global line holding a to be brought into the L1. -/
  | pref (a : Reg)
  /-- FENCE (R195): Waits until the outstanding counts of its scope reach zero. -/
  | fence (s : Scope)
  /-- MIGR (R197): Carries the thread to home_of(a) with the travel mask in d. -/
  | migr (d a : Reg)
  /-- SETE (R198): Sets the word at a empty, or reserves a global word. -/
  | sete (a : Reg)
  /-- SETF (R198): Sets the word at a full, or releases a reservation, and serves waiters. -/
  | setf (a : Reg)
  /-- FLUSH (R196): Writes back and invalidates the L1 line holding a. -/
  | flush (a : Reg)
  /-- SEND (R200): Posts payload b to the ib lane of the context named by a. -/
  | send (a b : Reg)
  /-- TSEND (R203): Sends a timed message stamped TNEXT to the destination core's timed lane. -/
  | tsend (a b : Reg)
  /-- TDEQ (R204): Dequeues the timed lane's head once TBOUND exceeds its stamp, advancing VT. -/
  | tdeq (d : Reg)
  /-- TNULL (R205): Announces the core's published value on every output link. -/
  | tnull
  /-- ADVT (R205): Advances VT toward a, bounded by TBOUND and the head stamp. -/
  | advt (a : Reg)
  /-- BINIT (R209): Initialises a barrier object with its expected count and XDIE. -/
  | binit (a b : Reg)
  /-- ARV (R210): Arrives at a barrier with count n and writes the returned token to d. -/
  | arv (d a : Reg) (o : Bool) (s : Scope) (n : BitVec 4)
  /-- ARVP (R210): Arrives at a barrier with count n as a posted operation. -/
  | arvp (a : Reg) (o : Bool) (s : Scope) (n : BitVec 4)
  /-- BWT (R211): Waits until the barrier's phase differs from b[3:0]. -/
  | bwt (a b : Reg) (o : Bool) (s : Scope)
  /-- WAIT (R212): Waits until OUTLD, OUTST, OUTCP and OUTMX are at or below the given limits. -/
  | wait (l s c m : BitVec 4)
  /-- SPAWN (R149): Pushes a task built from the spawn block at a, with the encoded affinity. -/
  | spawn (a b : Reg) (f : BitVec 3)
  /-- WFW (R150): Makes the context idle for its launch, or binds a further task; context 0 sleeps instead. -/
  | wfw
  /-- HALT (R151): Ends the thread after its drains and makes the context vacant. -/
  | halt
  /-- YIELD (R152): Gives up the context's next own-slot turn. -/
  | yield
  /-- CTXS (R153): Starts a vacant context of the core from a start block. -/
  | ctxs (a b : Reg)
  /-- CTXR (R154): Reaps a context of the core, killing any thread in it. -/
  | ctxr (a : Reg)
  /-- PRMT (R155): Requests pre-emption of a context, or resumes the oldest thread suspended by PRMT. -/
  | prmt (a : Reg)
  /-- LNCH (R156): Reads a launch block and hands it to the package scheduler. -/
  | lnch (a : Reg)
  /-- ACTB (R159): Allocates an activity descriptor and writes its handle. -/
  | actb (d a : Reg)
  /-- ACTJ (R160): Joins a current open activity as a participant. -/
  | actj (a : Reg)
  /-- ACTD (R161): Detaches the thread from its activity with a release. -/
  | actd
  /-- ACTE (R162): Ends an activity, committing it once it has no participants. -/
  | acte (a : Reg)
  /-- ACTA (R163): Moves an open activity to abandoning. -/
  | acta (a : Reg)
  /-- ACTST (R158): Writes the state of the activity a handle names. -/
  | actst (d a : Reg)
  /-- CPUSH (R164): Pushes a stamped compensation record for the current activity. -/
  | cpush (a b : Reg)
  /-- CRET (R165): Ends a compensation routine, reporting its status to the sepia unit. -/
  | cret (a : Reg)
  /-- MFS (R166): Reads a system register into d. -/
  | mfs (d : Reg) (r : BitVec 12)
  /-- MTS (R166): Writes slot a to a system register, for registers without a row of their own. -/
  | mts (a : Reg) (r : BitVec 12)
  /-- TRAP (R170): Raises the precise cause TRAP with DETAIL the code. -/
  | trap (i : BitVec 16)
  /-- TRET (R171): Returns from a handler to EPC once every scoreboard entry is settled. -/
  | tret
  /-- SETTLE (R172): Replays, discards or supplies scoreboard entry e. -/
  | settle (a : Reg) (e : BitVec 4) (c : BitVec 2)
  /-- BRK (R170): Raises BREAK, or gives a debug stop when claimed. -/
  | brk (i : BitVec 16)
  /-- SCRUB (R173): Queues n 64-byte blocks of the core's scratchpad for background scrubbing. -/
  | scrub (a : Reg) (n : BitVec 16)
  /-- VADD_FP (R286): Adds floating-point elements, rounding under FPMODE. -/
  | vaddFp (d a b m : BitVec 3) (t : VType) (e : BitVec 2)
  /-- VSUB_FP (R286): Subtracts floating-point elements. -/
  | vsubFp (d a b m : BitVec 3) (t : VType) (e : BitVec 2)
  /-- VMUL_FP (R286): Multiplies floating-point elements. -/
  | vmulFp (d a b m : BitVec 3) (t : VType) (e : BitVec 2)
  /-- VFMA (R286): Computes a × b + c with one rounding. -/
  | vfma (d a b c m : BitVec 3) (t : VType) (e : BitVec 2)
  /-- VFMS (R286): Computes a × b − c with one rounding. -/
  | vfms (d a b c m : BitVec 3) (t : VType) (e : BitVec 2)
  /-- VMIN_FP (R286): Takes the smaller floating-point element, with −0 below +0. -/
  | vminFp (d a b m : BitVec 3) (t : VType) (e : BitVec 2)
  /-- VMAX_FP (R286): Takes the larger floating-point element. -/
  | vmaxFp (d a b m : BitVec 3) (t : VType) (e : BitVec 2)
  /-- VABS_FP (R286): Clears the sign of each floating-point element. -/
  | vabsFp (d a m : BitVec 3) (t : VType) (e : BitVec 2)
  /-- VNEG_FP (R286): Inverts the sign of each floating-point element. -/
  | vnegFp (d a m : BitVec 3) (t : VType) (e : BitVec 2)
  /-- VDIV (R286): Divides floating-point elements, correctly rounded. -/
  | vdiv (d a b m : BitVec 3) (t : VType) (e : BitVec 2)
  /-- VSQRT (R286): Takes the correctly rounded square root of each element. -/
  | vsqrt (d a m : BitVec 3) (t : VType) (e : BitVec 2)
  /-- VRCP (R287): Takes the correctly rounded reciprocal of each element. -/
  | vrcp (d a m : BitVec 3) (t : VType) (e : BitVec 2)
  /-- VRSQ (R287): Takes the correctly rounded reciprocal square root. -/
  | vrsq (d a m : BitVec 3) (t : VType) (e : BitVec 2)
  /-- VEXP2 (R287): Takes the correctly rounded 2 to the power of each element. -/
  | vexp2 (d a m : BitVec 3) (t : VType) (e : BitVec 2)
  /-- VLOG2 (R287): Takes the correctly rounded base-2 logarithm. -/
  | vlog2 (d a m : BitVec 3) (t : VType) (e : BitVec 2)
  /-- VCVT (R288): Converts elements of the source type in vc's field to the destination type. -/
  | vcvt (d a : BitVec 3) (s : VType) (m : BitVec 3) (t : VType) (e : BitVec 2)
  /-- VCMP_FP (R290): Compares floating-point elements by the encoded relation into a mask register. -/
  | vcmpFp (k a b m r : BitVec 3) (t : VType) (e : BitVec 2)
  /-- VRED_FP (R291): Reduces floating-point elements by ADD, MAX or MIN with the pairwise tree. -/
  | vredFp (d a m : BitVec 3) (o : BitVec 2) (t : VType) (e : BitVec 2)
  /-- VADD_INT (R289): Adds integer elements modulo 2^w. -/
  | vaddInt (d a b m : BitVec 3) (t : VType) (e : BitVec 2)
  /-- VSUB_INT (R289): Subtracts integer elements. -/
  | vsubInt (d a b m : BitVec 3) (t : VType) (e : BitVec 2)
  /-- VMUL_INT (R289): Multiplies integer elements, keeping the low w bits. -/
  | vmulInt (d a b m : BitVec 3) (t : VType) (e : BitVec 2)
  /-- VMIN_INT (R289): Takes the smaller integer element. -/
  | vminInt (d a b m : BitVec 3) (t : VType) (e : BitVec 2)
  /-- VMAX_INT (R289): Takes the larger integer element. -/
  | vmaxInt (d a b m : BitVec 3) (t : VType) (e : BitVec 2)
  /-- VABS_INT (R289): Takes the absolute value of each integer element. -/
  | vabsInt (d a m : BitVec 3) (t : VType) (e : BitVec 2)
  /-- VNEG_INT (R289): Negates each integer element. -/
  | vnegInt (d a m : BitVec 3) (t : VType) (e : BitVec 2)
  /-- VAND (R289): ANDs integer elements. -/
  | vand (d a b m : BitVec 3) (t : VType) (e : BitVec 2)
  /-- VOR (R289): ORs integer elements. -/
  | vor (d a b m : BitVec 3) (t : VType) (e : BitVec 2)
  /-- VXOR (R289): XORs integer elements. -/
  | vxor (d a b m : BitVec 3) (t : VType) (e : BitVec 2)
  /-- VANDN (R289): Computes a AND NOT b per element. -/
  | vandn (d a b m : BitVec 3) (t : VType) (e : BitVec 2)
  /-- VSHL (R289): Shifts integer elements left. -/
  | vshl (d a b m : BitVec 3) (t : VType) (e : BitVec 2)
  /-- VSHR (R289): Shifts integer elements right logically. -/
  | vshr (d a b m : BitVec 3) (t : VType) (e : BitVec 2)
  /-- VSHA (R289): Shifts integer elements right arithmetically. -/
  | vsha (d a b m : BitVec 3) (t : VType) (e : BitVec 2)
  /-- VCMP_INT (R290): Compares integer elements by the encoded relation into a mask register. -/
  | vcmpInt (k a b m r : BitVec 3) (t : VType) (e : BitVec 2)
  /-- VRED_INT (R291): Reduces integer elements by ADD, MAX or MIN. -/
  | vredInt (d a m : BitVec 3) (o : BitVec 2) (t : VType) (e : BitVec 2)
  /-- VSEL (R292): Selects each element from va or vb by the mask k. -/
  | vsel (d a b m : BitVec 3) (t : VType) (e : BitVec 2)
  /-- VPERM (R292): Permutes the elements of va by the indices in vb. -/
  | vperm (d a b m : BitVec 3) (t : VType) (e : BitVec 2)
  /-- VSLUP (R292): Slides elements of va up by lane 0 of vb. -/
  | vslup (d a b m : BitVec 3) (t : VType) (e : BitVec 2)
  /-- VSLDN (R292): Slides elements of va down by lane 0 of vb. -/
  | vsldn (d a b m : BitVec 3) (t : VType) (e : BitVec 2)
  /-- VIOTA (R292): Writes each element's index. -/
  | viota (d m : BitVec 3) (t : VType) (e : BitVec 2)
  /-- VPOPK (R292): Writes the population count of the mask into every element. -/
  | vpopk (d m : BitVec 3) (t : VType) (e : BitVec 2)
  /-- VLD (R294): Loads a contiguous vector from the core's scratchpad. -/
  | vld (d : BitVec 3) (g : Reg) (m : BitVec 3) (t : VType) (e : BitVec 2)
  /-- VST (R294): Stores a contiguous vector to the core's scratchpad. -/
  | vst (d : BitVec 3) (g : Reg) (m : BitVec 3) (t : VType) (e : BitVec 2)
  /-- VLDS (R294): Loads a vector with a byte stride from gS. -/
  | vlds (d : BitVec 3) (g : Reg) (s : BitVec 4) (m : BitVec 3) (t : VType) (e : BitVec 2)
  /-- VSTS (R294): Stores a vector with a byte stride from gS. -/
  | vsts (d : BitVec 3) (g : Reg) (s : BitVec 4) (m : BitVec 3) (t : VType) (e : BitVec 2)
  /-- VGATH (R294): Gathers elements from base plus the offsets in an index vector. -/
  | vgath (d : BitVec 3) (g : Reg) (i m : BitVec 3) (t : VType) (e : BitVec 2)
  /-- VSCAT (R294): Scatters elements to base plus the offsets in an index vector. -/
  | vscat (d : BitVec 3) (g : Reg) (i m : BitVec 3) (t : VType) (e : BitVec 2)
  /-- VLDK (R295): Loads a mask register from 8 bytes of scratchpad. -/
  | vldk (k : BitVec 3) (g : Reg) (e : BitVec 2)
  /-- VSTK (R295): Stores a mask register to 8 bytes of scratchpad. -/
  | vstk (k : BitVec 3) (g : Reg) (e : BitVec 2)
  /-- VBCST (R296): Broadcasts a scalar into every active element. -/
  | vbcst (d : BitVec 3) (g : Reg) (m : BitVec 3) (t : VType) (e : BitVec 2)
  /-- VINS (R296): Writes a scalar into element gb of vd. -/
  | vins (d : BitVec 3) (g : Reg) (b : BitVec 4) (t : VType) (e : BitVec 2)
  /-- VEXT (R297): Delivers element gb of vd as a record in the vq lane. -/
  | vext (d : BitVec 3) (b : BitVec 4) (t : VType) (e : BitVec 2)
  /-- VSETK (R298): Sets a mask register from a scalar. -/
  | vsetk (k : BitVec 3) (g : Reg) (e : BitVec 2)
  /-- VMOVK (R298): Copies one mask register to another. -/
  | vmovk (k s : BitVec 3) (e : BitVec 2)
  /-- MCFG (R317): Sets the context's matrix format and scale bits. -/
  | mcfg (a : Reg) (e : BitVec 2)
  /-- MWL (R318): Appends a weight plane to the plane list. -/
  | mwl (a b : Reg) (e : BitVec 2)
  /-- MMA (R319): Queues a multiply of activation rows by captured weight planes into an accumulator bank. -/
  | mma (a b : Reg) (e : BitVec 2)
  /-- MACP (R320): Queues a copy of accumulator rows to or from the scratchpad. -/
  | macp (a b : Reg) (e : BitVec 2)
  /-- MCLR (R321): Queues a clear of accumulator rows to +0. -/
  | mclr (a : Reg) (e : BitVec 2)
  /-- MSTAGE (R322): Checks and places one matrix command in the staging slot for the next CGOC. -/
  | mstage (a b : Reg) (e : BitVec 2)
  /-- MPRI (R317): Sets the context's matrix priority. -/
  | mpri (e p : BitVec 2)
  /-- MCAN (R323): Cancels the context's uncompleted matrix commands, optionally emptying the plane list. -/
  | mcan (a : Reg) (e : BitVec 2)
  /-- CSETB (R304): Starts a fresh copy descriptor with a base, device and format. -/
  | csetb (a b : Reg) (e n : BitVec 2) (f : BitVec 4)
  /-- CSETD (R304): Sets the size and stride of one dimension of a descriptor. -/
  | csetd (a b : Reg) (e n : BitVec 2) (k : BitVec 4)
  /-- CSETS_SCALE (R304): Sets or clears a descriptor's scale region. -/
  | csetsScale (a b : Reg) (e n : BitVec 2)
  /-- CSETS_MCAST (R304): Sets or clears a descriptor's multicast rectangle. -/
  | csetsMcast (a b : Reg) (e n : BitVec 2)
  /-- CGO (R306): Checks two descriptors and starts a copy, conversion or accumulation with an optional flag. -/
  | cgo (a b : Reg) (e s t : BitVec 2) (o : BitVec 3)
  /-- CGOC (R306): Starts a copy that carries the staged matrix command. -/
  | cgoc (a b : Reg) (e s t : BitVec 2) (o : BitVec 3)
  /-- CCAN (R312): Cancels every uncompleted copy command of the context. -/
  | ccan (e : BitVec 2)
  /-- ISSUE_TURN (R62): Each cycle the turn's slot or spare-turn context injects a packet at the foot with sources filled. -/
  | issueTurn (core : Nat)
  /-- MULTIPLY_DONE (R136): The product is ready after three cycles in the multiplier and is emitted. -/
  | multiplyDone (core : Nat)
  /-- DIVIDE_DONE (R137): The divider finishes an operation after L cycles and starts the next queued one. -/
  | divideDone (core : Nat)
  /-- LEAVE_LATE (R75): A siding operation not done within 4 cycles leaves with DST late and emits a late marker. -/
  | leaveLate (cid : Nat)
  /-- LATE_VALUE_RETURN (R75): A late request's value returns and enters at stage 11, leaving OUTLD. -/
  | lateValueReturn (n : Nat) (delay : BitVec 16)
  /-- LATE_VALUE_LAND (R76): A late value reaching the foot fills its entry, writes the store, or is discarded. -/
  | lateValueLand (core : Nat)
  /-- RETIRE (R77): A packet reaching stage 11 retires and its sequence is certified. -/
  | retire (cid : Nat)
  /-- LANDING_DRAIN (R77): Certified landing entries drain into the register store in turn order. -/
  | landingDrain (core : Nat)
  /-- WITHDRAW (R79): A packet waiting a ninth cycle is withdrawn, launching a kill wave and parking the context. -/
  | withdraw (cid : Nat)
  /-- CONTEXT_WAKE (R79): A parked context whose wake condition holds becomes runnable and re-fetches. -/
  | contextWake (cid : Nat)
  /-- KILL_WAVE_FOOT (R81): A kill wave reaching the foot discards younger entries, redirects fetch and resets the sequence. -/
  | killWaveFoot (cid : Nat)
  /-- FETCH_SERVE (R85): The cluster fetch port serves one 64-byte block, merging identical requests. -/
  | fetchServe (cluster : Nat)
  /-- FETCH_FILL (R85): A served block enters the requesting fetch buffers two cycles later. -/
  | fetchFill (cluster : Nat)
  /-- ALIGN_RELEASE (R86): Contexts held at an ALIGN are released together when all arrive or n cycles pass. -/
  | alignRelease (cid : Nat)
  /-- BOUNDARY (R91): A packet at stage 10 with all older packets certified takes the first pending item of R215. -/
  | boundary (cid : Nat)
  /-- DELEGATION_PRESENT (R220): Context 0 is presented with the oldest queued delegation as a trap entry. -/
  | delegationPresent (core : Nat)
  /-- LATE_FAULT_REPORT (R221): A home, translation or siding reports a fault for a retired operation, making a late fault pending. -/
  | lateFaultReport (n : Nat)
  /-- PREEMPT_SUSPEND (R226): A pre-empted context suspends once OUTLD and UNACK are zero, saving its state. -/
  | preemptSuspend (cid : Nat)
  /-- CONTAINMENT_KILL (R228): Consuming an uncorrectable error in thread state kills the thread at once. -/
  | containmentKill (cid : Nat) (what : BitVec 4)
  /-- GANG_STOP_ARRIVE (R229): A gang stop reaching a core stops injection and records its counts. -/
  | gangStopArrive (core : Nat)
  /-- GANG_STOP (R378): A host write of GANG OP stop starts a gang stop of the partition. -/
  | gangStop (part : Nat)
  /-- GANG_RELEASE (R378): A host write of GANG OP release restarts injection in the partition. -/
  | gangRelease (part : Nat)
  /-- GANG_CANCEL (R378): A host write of GANG OP cancel ends the partition's launches with STATUS 0x03. -/
  | gangCancel (part : Nat)
  /-- LAUNCH_ACCEPT (R38): The package scheduler checks a handed-over block and accepts or refuses it. -/
  | launchAccept (part : Nat)
  /-- TASK_GENERATE (R42): The generator pushes the next task into its die's ready queue when it has room. -/
  | taskGenerate (launch : Nat)
  /-- TASK_AGE (R43): A queued task's effective priority rises after each full 4,096 cycles. -/
  | taskAge (die k : Nat)
  /-- TASK_BIND (R44): A cluster dispenser binds a queued task to an offered context. -/
  | taskBind (cluster : Nat)
  /-- BANK_POWER_UP_DONE (R45): A core's scratchpad banks finish powering up and the reserved binding completes. -/
  | bankPowerUpDone (core : Nat)
  /-- BANK_POWER_DOWN (R57): A core's banks power down when no context is occupied and nothing is held, refusing queued requests. -/
  | bankPowerDown (core : Nat)
  /-- STEAL_REQUEST (R51): A die with offered contexts and nothing bindable sends a steal request. -/
  | stealRequest (die : Nat)
  /-- STEAL_ANSWER (R51): A victim die answers with the older half of its any-die tasks. -/
  | stealAnswer (n : Nat)
  /-- STEAL_BACKOFF (R51): After three failed requests a die waits 1,024 cycles before asking again. -/
  | stealBackoff (die : Nat)
  /-- SPAWNER_RESCUE (R50): The die scheduler suspends the earliest parked spawner to free its context. -/
  | spawnerRescue (die : Nat)
  /-- THREAD_DEPART (R54): A travelling thread leaves once its drains are done, carrying the masked registers. -/
  | threadDepart (cid : Nat)
  /-- MIGRATION_ARRIVAL (R53): A migration message reaches the destination and is admitted, held or refused. -/
  | migrationArrival (n : Nat)
  /-- MIGRATION_RESEND (R53): A refused migration is resent after its backoff expires. -/
  | migrationResend (core : Nat)
  /-- ARRIVAL_MOVE (R230): A held arrival finishes moving from the spill area to the cache or from the cache to the queue. -/
  | arrivalMove (core : Nat)
  /-- LAUNCH_SWEEP (R60): Every 1,024 cycles the package sums message counts and ends launches that meet every condition. -/
  | launchSweep (part : Nat)
  /-- HOME_LOAD (R233): A home performs a load request and replies with the value. -/
  | homeLoad (n : Nat)
  /-- HOME_WRITE_BACK (R237): A home performs a store write-back after invalidating copies and acknowledges it. -/
  | homeWriteBack (n : Nat)
  /-- HOME_LDF (R184): A home serves an LDF if the word is full, else queues it. -/
  | homeLdf (n : Nat)
  /-- HOME_LDFF (R184): A home serves an LDFF if the word is full, else queues it. -/
  | homeLdff (n : Nat)
  /-- HOME_STF (R184): A home performs an STF and serves the word's waiters. -/
  | homeStf (n : Nat)
  /-- HOME_SETE (R198): A home sets a word empty or reserves a global word. -/
  | homeSete (n : Nat)
  /-- HOME_SETF (R198): A home sets a word full or releases a reservation and serves waiters. -/
  | homeSetf (n : Nat)
  /-- HOME_ATOM_RESERVE (R188): A home grants or queues the reserve half of an ATOM. -/
  | homeAtomReserve (n : Nat)
  /-- HOME_ATOM_RELEASE (R188): A home performs the release half of an ATOM. -/
  | homeAtomRelease (n : Nat)
  /-- HOME_WATCH (R191): A home enters a watch or answers that its table is full. -/
  | homeWatch (n : Nat)
  /-- HOME_UNWATCH (R191): A home removes a context's watch of a word. -/
  | homeUnwatch (n : Nat)
  /-- HOME_WAITA_READ (R193): A home performs a WAITA read as an acquire. -/
  | homeWaitaRead (n : Nat)
  /-- HOME_FLUSH (R196): A home performs a FLUSH write-back and acknowledges it. -/
  | homeFlush (n : Nat)
  /-- HOME_BINIT (R209): A home initialises a barrier object and releases stale BWTs. -/
  | homeBinit (n : Nat)
  /-- HOME_ARV (R210): A home counts a barrier arrival and completes the phase when due. -/
  | homeArv (n : Nat)
  /-- HOME_BWT (R211): A home replies to a BWT or holds it until the phase changes. -/
  | homeBwt (n : Nat)
  /-- ORPHAN_MESSAGE (R187): A home serves the waiters of a word whose reservation holder ended. -/
  | orphanMessage (n : Nat)
  /-- REQUEST_REFUSED (R186): A home refuses a request for a full table, and the core counts it or parks the context. -/
  | requestRefused (n : Nat)
  /-- REQUEST_RESEND (R186): A refused request is resent when its doubling backoff expires. -/
  | requestResend (core : Nat)
  /-- WCB_SEND (R237): A write-combining entry is sent to its home 8 cycles after its first store. -/
  | wcbSend (core : Nat)
  /-- WATCH_WAKE (R192): A wake from a home sets a watching context's ready bit. -/
  | watchWake (n : Nat)
  /-- POLLED_WATCH (R191): Every 256 cycles the core reads a polled watch's word and treats a change as a store. -/
  | polledWatch (core : Nat)
  /-- INVALIDATION (R258): An invalidation reaches an L1 or replica, which invalidates and acknowledges. -/
  | invalidation (n : Nat)
  /-- REPLICA_DROP (R246): A replica slice drops a replica after invalidating its L1 copies. -/
  | replicaDrop (die line : Nat)
  /-- DROP_NOTICE (R246): A home removes a replica die from a line's sharers on its drop notice. -/
  | dropNotice (n : Nat)
  /-- PARITY_UPDATE (R253): A slate group applies its oldest queued parity update. -/
  | parityUpdate (core : Nat) (g : BitVec 2)
  /-- SCRUB_PASS (R257): The scrubber checks the next 64-byte block every 256 cycles. -/
  | scrubPass (core : Nat)
  /-- SCRUB_REQUEST_BLOCK (R173): A queued SCRUB block is checked, one per 4 cycles. -/
  | scrubRequestBlock (core : Nat)
  /-- MESSAGE_ACCEPT (R245): A destination core accepts a message into a hardware entry or its ring, or refuses it. -/
  | messageAccept (n : Nat)
  /-- MESSAGE_RESEND (R201): A refused message is resent after its backoff. -/
  | messageResend (core : Nat)
  /-- INBOX_REFILL (R245): A free hardware entry takes the oldest pending ring entry. -/
  | inboxRefill (core : Nat)
  /-- PORT_WORD_ARRIVE (R206): A pushed word enters the neighbour's facing port FIFO. -/
  | portWordArrive (n : Nat)
  /-- TIMED_MESSAGE_ARRIVE (R361): A timed message enters the destination's timed lane in stamp order, or is refused. -/
  | timedMessageArrive (n : Nat)
  /-- ANNOUNCEMENT (R365): A core announces its published value on an output link and raises VT. -/
  | announcement (core dest : Nat)
  /-- ANNOUNCEMENT_RECEIVE (R362): A core applies an announced value to its input link and recomputes TBOUND. -/
  | announcementReceive (n : Nat)
  /-- ZERO_LOOKAHEAD_ROUND (R368): A round of 256 cycles ends, raising ZERO_LOOKAHEAD after ROUNDS unchanged rounds. -/
  | zeroLookaheadRound (core : Nat)
  /-- END_OF_TIME (R367): A listed core with no launch thread left sets VT and P to all ones. -/
  | endOfTime (core : Nat)
  /-- ENERGY_REFILL (R282): Every 1,024 cycles each context's energy budget is refilled. -/
  | energyRefill (core : Nat)
  /-- ENERGY_INTERVAL (R403): Each microsecond a die charges its energy to launches and the idle account. -/
  | energyInterval (die : Nat)
  /-- VECTOR_COMPLETE (R281): A vector command completes, merging flags and delivering any VEXT record. -/
  | vectorComplete (core k : Nat)
  /-- VECTOR_FAULT (R299): A vector command stops at a faulting element and gives an ENGINE_FAULT entry. -/
  | vectorFault (core k : Nat)
  /-- COPY_PIECE_DONE (R308): A copy piece is performed and acknowledged at every destination. -/
  | copyPieceDone (core k piece : Nat)
  /-- COPY_COMPLETE (R311): After its flag is acknowledged, a copy delivers its cq record. -/
  | copyComplete (core k : Nat)
  /-- COPY_FAULT (R313): A copy stops at a faulting piece or flag store, gives a late entry and a faulted record. -/
  | copyFault (core k : Nat)
  /-- STAGED_ENTER (R322): A staged matrix command enters its queue once its copy and earlier copies complete. -/
  | stagedEnter (core : Nat)
  /-- MATRIX_START (R324): The free matrix siding starts or resumes the eligible command of highest effective priority. -/
  | matrixStart (core : Nat)
  /-- PLANE_LOAD_DONE (R331): A weight plane finishes loading into the shadow. -/
  | planeLoadDone (core : Nat)
  /-- KSTEP_DONE (R319): An MMA k-step completes and commits its counts. -/
  | kstepDone (core : Nat)
  /-- MATRIX_COMPLETE (R326): A matrix command completes and delivers its mq record when the lane has room. -/
  | matrixComplete (core : Nat)
  /-- MATRIX_FAULT (R327): A matrix command ends at its current k-step on an uncorrectable error. -/
  | matrixFault (core : Nat)
  /-- CURRENT_LIMITER_SAMPLE (R391): Every 256 cycles the die limiter samples current and holds or releases matrix sidings. -/
  | currentLimiterSample (die amps : Nat)
  /-- STAMP_DRAW (R336): A domain's counter die serves a stamp draw and increments the counter. -/
  | stampDraw (cid : Nat)
  /-- CPUSH_DURABLE (R339): A compensation record is performed in HBM and acknowledged to the pushing core. -/
  | cpushDurable (cid : Nat)
  /-- UNWIND_CHOOSE (R344): The sepia unit picks the largest-stamp record of the unwind set and posts its routine. -/
  | unwindChoose (domain : BitVec 8)
  /-- ROUTINE_BIND (R345): A posted compensating routine binds with its record's arguments in compensation mode. -/
  | routineBind (cluster : Nat)
  /-- SEPIACTL_RETRY (R350): A SEPIACTL write of retry reposts the frozen record's routine and thaws the domain. -/
  | sepiactlRetry (core : Nat) (v : BitVec 64)
  /-- SEPIACTL_SKIP (R350): A SEPIACTL write of skip marks the frozen record skipped and thaws the domain. -/
  | sepiactlSkip (core : Nat) (v : BitVec 64)
  /-- SEPIACTL_FAIL (R350): A SEPIACTL write of fail makes the activity failed and discards its records. -/
  | sepiactlFail (core : Nat) (v : BitVec 64)
  /-- SLATE_RETIRE_BANK (R255): A SLATECTL write retires a data bank of a normal group. -/
  | slateRetireBank (core : Nat) (bank : BitVec 4)
  /-- SLATE_FAIL_PARITY (R255): A SLATECTL write fails a group's parity bank. -/
  | slateFailParity (core : Nat) (bank : BitVec 4)
  /-- SLATE_CLEAR_COUNTS (R255): A SLATECTL write clears the core's error counts. -/
  | slateClearCounts (core : Nat)
  /-- SLATEST_WRITE (R256): A write to SLATEST sets UECNT and CECNT and discards the rest. -/
  | slatestWrite (core : Nat) (v : BitVec 64)
  /-- INBOX_RING_SET (R244): An MTS of INBASE or INSIZE takes effect once the ring holds no unconsumed entry. -/
  | inboxRingSet (core : Nat) (size : Bool) (v : BitVec 64)
  /-- FPMODE_WRITE (R266): An MTS of FPMODE performs once older vector instructions complete. -/
  | fpmodeWrite (cid : Nat) (v : BitVec 64)
  /-- FPFLAGS_ACCESS (R267): An MFS or MTS of FPFLAGS performs once older vector instructions complete. -/
  | fpflagsAccess (cid : Nat) (w : Option (BitVec 64))
  /-- MX_COUNTER_CLEAR (R328): An MTS of MXSAT, MXNAN or MXBSO clears the counter. -/
  | mxCounterClear (cid : Nat) (which : BitVec 2)
  /-- PROF_CLEAR (R402): An MTS of a profiling accumulator clears both fields. -/
  | profClear (core : Nat) (k : BitVec 5)
  /-- TRCCTL_WRITE (R396): An MTS of TRCCTL performs after queued records, resetting WOFF when the buffer changes. -/
  | trcctlWrite (core : Nat) (v : BitVec 64)
  /-- WINDOW_INVALIDATE (R248): A store to the invalidate window sends a sharer an invalidation of a line. -/
  | windowInvalidate (core : Nat) (code : BitVec 12) (line : Nat)
  /-- WINDOW_OVERFLOW_POP (R248): A load of the overflow window pops the oldest overflow record. -/
  | windowOverflowPop (core : Nat)
  /-- WINDOW_OVERFLOW_RELEASE (R248): A store to the overflow window releases a held write. -/
  | windowOverflowRelease (core line : Nat)
  /-- LAUNCHW_WRITE (R379): A host write to the launch word wakes the hub supervisor, which submits the block. -/
  | launchwWrite (fn : Nat) (v : BitVec 64)
  /-- BOOT_IMAGE_STAGED (R386): A host write of BOOT.STATE 0x1 makes the root of trust check and start the image. -/
  | bootImageStaged (fn : Nat)
  /-- UNIT_READY (R386): A unit finishes bring-up and sets its READY bit. -/
  | unitReady (k : Nat)
  /-- FWFAULT_READ (R378): A host read of FWFAULT pops the oldest logged firmware fault. -/
  | fwfaultRead (fn : Nat)
  /-- HMDATA_WRITE (R381): A host write of HMDATA queues a host message, or discards and counts it. -/
  | hmdataWrite (fn : Nat) (v : BitVec 64)
  /-- HOST_MESSAGE_SEND (R381): The hub sends the next queued host message to its context's ib lane. -/
  | hostMessageSend (fn : Nat)
  /-- HMDROP_READ (R381): A host read of HMDROP returns and clears the drop count. -/
  | hmdropRead (fn : Nat)
  /-- HBADW_READ (R404): A host read of HBADW returns and clears the count of failed host accesses. -/
  | hbadwRead (fn : Nat)
  /-- HOST_POSTED_WRITE (R404): A PCIe posted write through BAR 2 is performed at its home or discarded and recorded. -/
  | hostPostedWrite (fn : Nat) (off : BitVec 64) (size : Nat) (data : BitVec 64)
  /-- CXL_MEM_WRITE (R249): A CXL.mem write is performed at its home and completes to the host. -/
  | cxlMemWrite (fn : Nat) (off : BitVec 64) (size : Nat) (data : BitVec 64)
  /-- HOST_READ (R249): A PCIe or CXL.mem read returns the home's value, or poisoned data. -/
  | hostRead (fn : Nat) (off : BitVec 64) (size : Nat)
  /-- HOST_REGISTER_WRITE (R378): A host write to a BAR 0 register without behaviour of its own. -/
  | hostRegisterWrite (fn off : Nat) (v : BitVec 64)
  /-- DBGSEL_WRITE (R392): A host write of DBGSEL selects a core, or is discarded. -/
  | dbgselWrite (fn : Nat) (v : BitVec 64)
  /-- DEBUG_STOP (R393): A DBGCTL stop puts the core into a debug stop. -/
  | debugStop (core : Nat)
  /-- DEBUG_RESUME (R393): A DBGCTL resume restarts injection in every context. -/
  | debugResume (core : Nat)
  /-- DEBUG_STEP (R393): A DBGCTL step restarts injection in one context until one packet retires. -/
  | debugStep (core : Nat) (ctx : BitVec 4)
  /-- DBGDATA_ACCESS (R392): A host access of DBGDATA reads or writes the item DBGREG selects. -/
  | dbgdataAccess (fn : Nat) (w : Option (BitVec 64))
  /-- FIRMWARE_FAULT (R380): The management core logs a firmware fault, raises MSI-X and restarts context 0. -/
  | firmwareFault (core : Nat)
  /-- TRACE_RECORD_WRITE (R398): The trace encoder writes a queued record as a posted store. -/
  | traceRecordWrite (core : Nat)
  /-- TRACE_FAULT (R399): A record's translation failure halts tracing and queues TRACE_HALTED. -/
  | traceFault (core : Nat)
  /-- BOUNDARY_FAILURE (R373): A failed die boundary drains its packets and reroutes traffic by the detour. -/
  | boundaryFailure (b : Nat)
  /-- FLIT_RECEIVE (R383): A peer port checks a received flit and requests replay on a bad tag or gap. -/
  | flitReceive (port : Nat) (hdr : BitVec 32) (tagOk : Bool)
  /-- KEY_ROLLOVER (R384): A peer port begins sending under a new key with the epoch bit toggled. -/
  | keyRollover (port : Nat)
  /-- PEER_PORT_DOWN (R385): A peer port goes down and its copies are resent through the next listed port. -/
  | peerPortDown (port : Nat)
  /-- CORRECTION_BEAT (R388): A time-correction beat makes each cluster adjust its GTIME increment. -/
  | correctionBeat (ns : BitVec 64)
  /-- FREQUENCY_CHANGE (R389): A cluster stops, withdrawing unperformed packets, to switch its clock. -/
  | frequencyChange (cluster level : Nat)
  /-- FREQUENCY_RESUME (R389): The cluster's clock switch completes and issue resumes. -/
  | frequencyResume (cluster : Nat)
  /-- THERMAL_STEP (R390): Every 100 µs a hot die's clusters step frequency down or back up. -/
  | thermalStep (die temp : Nat)
  /-- THERMAL_TRIP (R390): A junction at 110 °C cancels every partition and powers off the compute dies. -/
  | thermalTrip (die : Nat)
  /-- POWER_STEP_DOWN (R390): A 10 ms power average above 3.6 kW steps every cluster down a level. -/
  | powerStepDown (watts : Nat)
  /-- POWER_UP (R386): At power-up the device runs from the root of trust's ROM and awaits the image. -/
  | powerUp
  /-- ACKNOWLEDGEMENT_ARRIVAL (R177): A home's acknowledgement of a posted operation reaches the issuing core, UNACK falls and the reply's delay field is added to a profiling accumulator. -/
  | acknowledgementArrival (n : Nat) (delay : BitVec 16)
  /-- BACK_INVALIDATION_ACK (R249): The host acknowledges a back-invalidation, and the home then performs the device write that it held. -/
  | backInvalidationAck (n : Nat)
  /-- SPAWN_PUSH_ARRIVAL (R60): A SPAWN push reaches the target die and its task enters that die's ready queue, where the push is counted as received. -/
  | spawnPushArrival (n : Nat)
  /-- STOLEN_TASKS_ARRIVAL (R51): A victim die's answer to a steal request reaches the thief, which appends the tasks in enqueue order or counts a failed request. -/
  | stolenTasksArrival (n : Nat)
  /-- INSTRUCTION_CACHE_FILL (R85): After an instruction-cache miss, the missing block arrives, and the contexts that waited for fetch can be served. -/
  | instructionCacheFill (cluster block : Nat)
  /-- RETENTION_RELEASE (R59): The supervisor releases a core's scratchpad retained for launch SUCC. -/
  | retentionRelease (core : Nat)
  /-- FIRMWARE_STAGING_WRITE (R377): A host write into BAR 4 stages firmware image bytes, and such a write is refused once boot has completed. -/
  | firmwareStagingWrite (fn off : Nat) (data : BitVec 64)
  /-- ATTESTATION_REQUEST (R387): An SPDM request written to the DOE mailbox is answered with a signed report of the layer measurements. -/
  | attestationRequest (fn : Nat) (req : BitVec 64)
  /-- PEER_COPY_PIECE_ARRIVAL (R382): A copy piece from a peer device arrives through a peer port and is translated and performed at this device's homes. -/
  | peerCopyPieceArrival (port : Nat) (va : BitVec 64) (bytes : List Byte)
  deriving DecidableEq, Repr

end Sys2Proof
end

