-- ==== Sys2Proof/WellFormed.lean ====
section
/-! DEFINITION. Which instructions are well formed: the limits that "Instruction formats and opcode map"
puts on register fields (R95, R96), types and masks (R108 to R110), sizes and scopes (R102 to R106) and
immediates (R100, R101, R107, R112). A word that breaks one is ILLEGAL (R115, fates 2 and 3). -/

namespace Sys2Proof

/-- A lane or a port: 0x11 to 0x18 of R95. -/
def Reg.isLaneOrPort : Reg → Bool
  | .mq | .vq | .cq | .ib | .port _ => true
  | _ => false

/-- A neighbour port. -/
def Reg.isPort : Reg → Bool
  | .port _ => true
  | _ => false

/-- May stand where only a plain register is read (R96): anything but a lane or a port. -/
def Reg.srcOk (r : Reg) : Bool := !r.isLaneOrPort

/-- May stand as a destination outside majors 0x01 to 0x0E and MFS: g0 to g15 or zr (R95, R96). -/
def Reg.dstOk : Reg → Bool
  | .g _ | .zr => true
  | _ => false

/-- May stand as a destination in majors 0x01 to 0x0E and in MFS: g0 to g15, zr or a port. -/
def Reg.dstPortOk (r : Reg) : Bool := r.dstOk || r.isPort

/-- The F types of R109. -/
def VType.isFp : VType → Bool
  | .f32 | .f64 | .bf16 => true
  | _ => false

/-- The I types of R109. -/
def VType.isInt (t : VType) : Bool := !t.isFp

/-- Mask codes 0 to 4 (R108). -/
def maskOk (m : BitVec 3) : Bool := m.toNat ≤ 4

/-- A field that names a mask register as k0 to k3 (R108). -/
def kOk (k : BitVec 3) : Bool := k.toNat ≤ 3

/-- The scope is zero unless ord = 1 (R102, R103, R105). -/
def ordOk (o : Bool) (c : Scope) : Bool := o || c == .th

/-- The system register numbers that R167 assigns. -/
def sysAssigned (n : Nat) : Bool :=
  n ≤ 4 || (8 ≤ n && n ≤ 0x14) || (0x18 ≤ n && n ≤ 0x1C) || (0x20 ≤ n && n ≤ 0x24) || n == 0x28
    || (0x30 ≤ n && n ≤ 0x34) || (0x40 ≤ n && n ≤ 0x50) || n == 0x60 || n == 0x61 || n == 0x70
    || n == 0x71 || n == 0x80 || (0x90 ≤ n && n ≤ 0xB1)

/-- Registers in which some context can write some field (R107, R167); an MTS to any other is ILLEGAL. -/
def sysWritable (n : Nat) : Bool :=
  (8 ≤ n && n ≤ 0xA) || (0x11 ≤ n && n ≤ 0x13) || (0x1A ≤ n && n ≤ 0x1C) || (0x20 ≤ n && n ≤ 0x24)
    || n == 0x28 || n == 0x30 || n == 0x31 || n == 0x34 || n == 0x50 || n == 0x60 || n == 0x61
    || n == 0x70 || n == 0x71 || n == 0x80 || (0x90 ≤ n && n ≤ 0xB1)

/-- FCAS takes its compare value from register t + 1, so t is g0 to g14 (R103). -/
def fcasOk : Reg → Bool
  | .g n => decide (n.val ≤ 14)
  | _ => false

/-- The well-formedness check of each instruction; the device's own steps carry no word and pass. -/
def Instr.wf : Instr → Bool
  | .add d _ _ => d.dstPortOk
  | .addw d _ _ => d.dstPortOk
  | .sub d _ _ => d.dstPortOk
  | .subw d _ _ => d.dstPortOk
  | .andR d _ _ => d.dstPortOk
  | .orR d _ _ => d.dstPortOk
  | .xorR d _ _ => d.dstPortOk
  | .andn d _ _ => d.dstPortOk
  | .orn d _ _ => d.dstPortOk
  | .shl d _ _ => d.dstPortOk
  | .shlw d _ _ => d.dstPortOk
  | .shr d _ _ => d.dstPortOk
  | .shrw d _ _ => d.dstPortOk
  | .sha d _ _ => d.dstPortOk
  | .shaw d _ _ => d.dstPortOk
  | .rotl d _ _ => d.dstPortOk
  | .rotlw d _ _ => d.dstPortOk
  | .shli d _ _ _ => d.dstPortOk
  | .shliw d _ _ => d.dstPortOk
  | .shri d _ _ _ => d.dstPortOk
  | .shriw d _ _ => d.dstPortOk
  | .shai d _ _ _ => d.dstPortOk
  | .shaiw d _ _ => d.dstPortOk
  | .slt d _ _ => d.dstPortOk
  | .sltn d _ _ => d.dstPortOk
  | .seq d _ _ => d.dstPortOk
  | .sne d _ _ => d.dstPortOk
  | .min d _ _ => d.dstPortOk
  | .max d _ _ => d.dstPortOk
  | .minn d _ _ => d.dstPortOk
  | .maxn d _ _ => d.dstPortOk
  | .sel d _ _ => d.dstOk
  | .spa d _ _ => d.dstPortOk
  | .spx d _ => d.dstPortOk
  | .home d _ => d.dstPortOk
  | .mul d _ _ => d.dstPortOk
  | .mulw d _ _ => d.dstPortOk
  | .mulh d _ _ => d.dstPortOk
  | .mulhn d _ _ => d.dstPortOk
  | .div d _ _ => d.dstPortOk
  | .divw d _ _ => d.dstPortOk
  | .divn d _ _ => d.dstPortOk
  | .divnw d _ _ => d.dstPortOk
  | .rem d _ _ => d.dstPortOk
  | .remw d _ _ => d.dstPortOk
  | .remn d _ _ => d.dstPortOk
  | .remnw d _ _ => d.dstPortOk
  | .clz d _ => d.dstPortOk
  | .clzw d _ => d.dstPortOk
  | .ctz d _ => d.dstPortOk
  | .ctzw d _ => d.dstPortOk
  | .pop d _ => d.dstPortOk
  | .popw d _ => d.dstPortOk
  | .brev d _ => d.dstPortOk
  | .brevw d _ => d.dstPortOk
  | .bswap d _ => d.dstPortOk
  | .bswapw d _ => d.dstPortOk
  | .addi d _ _ => d.dstPortOk
  | .andi d _ _ => d.dstPortOk
  | .ori d _ _ => d.dstPortOk
  | .xori d _ _ => d.dstPortOk
  | .slti d _ _ => d.dstPortOk
  | .sltni d _ _ => d.dstPortOk
  | .li d _ => d.dstPortOk
  | .lih d _ => d.dstPortOk
  | .muli d _ _ => d.dstPortOk
  | .addiw d _ _ => d.dstPortOk
  | .ext d _ p l => d.dstPortOk && decide (p.toNat + l.toNat + 1 ≤ 64)
  | .extx d _ p l => d.dstPortOk && decide (p.toNat + l.toNat + 1 ≤ 64)
  | .ins d _ p l => d.dstOk && decide (p.toNat + l.toNat + 1 ≤ 64)
  | .beq a b _ => a.srcOk && b.srcOk
  | .bne a b _ => a.srcOk && b.srcOk
  | .blt a b _ => a.srcOk && b.srcOk
  | .bge a b _ => a.srcOk && b.srcOk
  | .bltn a b _ => a.srcOk && b.srcOk
  | .bgen a b _ => a.srcOk && b.srcOk
  | .j _ => true
  | .jal _ => true
  | .jr a => a.srcOk
  | .jalr d a => a.srcOk && d.dstOk
  | .align _ => true
  | .bsig _ => true
  | .bsigt _ => true
  | .nest a i => a.srcOk && decide (0 < i.toInt)
  | .next i => decide (i.toInt < 0)
  | .ld t a _ o c _ => t.dstOk && a.srcOk && ordOk o c
  | .ldx t a s o c _ => t.dstOk && a.srcOk && s != .d && ordOk o c
  | .st t a _ o c _ => t.srcOk && a.srcOk && ordOk o c
  | .ldf t a o c _ => t.dstOk && a.srcOk && ordOk o c
  | .stf t a o c _ => t.srcOk && a.srcOk && ordOk o c
  | .ldff t a o c _ => t.dstOk && a.srcOk && ordOk o c
  | .faa t a _ o c => t.dstOk && a.srcOk && ordOk o c
  | .fxch t a _ o c => t.dstOk && a.srcOk && ordOk o c
  | .fcas t a _ o c => fcasOk t && a.srcOk && ordOk o c
  | .fmin t a _ o c => t.dstOk && a.srcOk && ordOk o c
  | .fmax t a _ o c => t.dstOk && a.srcOk && ordOk o c
  | .fand t a _ o c => t.dstOk && a.srcOk && ordOk o c
  | .forA t a _ o c => t.dstOk && a.srcOk && ordOk o c
  | .fxor t a _ o c => t.dstOk && a.srcOk && ordOk o c
  | .watch a => a.srcOk
  | .unwatch a => a.srcOk
  | .waita d a => d.srcOk && a.srcOk
  | .pref a => a.srcOk
  | .fence _ => true
  | .migr d a => d.srcOk && a.srcOk
  | .sete a => a.srcOk
  | .setf a => a.srcOk
  | .flush a => a.srcOk
  | .send a b => a.srcOk && b.srcOk
  | .tsend a b => a.srcOk && b.srcOk
  | .tdeq d => d.dstOk
  | .tnull => true
  | .advt a => a.srcOk
  | .binit a b => a.srcOk && b.srcOk
  | .arv d a o s n => a.srcOk && d.dstOk && ordOk o s && n != 0
  | .arvp a o s n => a.srcOk && ordOk o s && n != 0
  | .bwt a b o s => a.srcOk && b.srcOk && ordOk o s
  | .wait _ _ _ _ => true
  | .spawn a b f => a.srcOk && b.srcOk && decide (f.toNat < 4) && (decide (2 ≤ f.toNat) || b == .g 0)
  | .wfw => true
  | .halt => true
  | .yield => true
  | .ctxs a b => a.srcOk && b.srcOk
  | .ctxr a => a.srcOk
  | .prmt a => a.srcOk
  | .lnch a => a.srcOk
  | .actb d a => a.srcOk && d.dstOk
  | .actj a => a.srcOk
  | .actd => true
  | .acte a => a.srcOk
  | .acta a => a.srcOk
  | .actst d a => a.srcOk && d.dstOk
  | .cpush a b => a.srcOk && b.srcOk
  | .cret a => a.srcOk
  | .mfs d r => d.dstPortOk && sysAssigned r.toNat
  | .mts _ r => sysWritable r.toNat
  | .trap _ => true
  | .tret => true
  | .settle a _ c => a.srcOk && c != 3 && (c == 2 || a == .g 0)
  | .brk _ => true
  | .scrub a n => a.srcOk && n != 0 && decide (n.toNat ≤ 8192)
  | .vaddFp _ _ _ m t _ => t.isFp && maskOk m
  | .vsubFp _ _ _ m t _ => t.isFp && maskOk m
  | .vmulFp _ _ _ m t _ => t.isFp && maskOk m
  | .vfma _ _ _ _ m t _ => t.isFp && maskOk m
  | .vfms _ _ _ _ m t _ => t.isFp && maskOk m
  | .vminFp _ _ _ m t _ => t.isFp && maskOk m
  | .vmaxFp _ _ _ m t _ => t.isFp && maskOk m
  | .vabsFp _ _ m t _ => t.isFp && maskOk m
  | .vnegFp _ _ m t _ => t.isFp && maskOk m
  | .vdiv _ _ _ m t _ => t.isFp && maskOk m
  | .vsqrt _ _ m t _ => t.isFp && maskOk m
  | .vrcp _ _ m t _ => t.isFp && maskOk m
  | .vrsq _ _ m t _ => t.isFp && maskOk m
  | .vexp2 _ _ m t _ => t.isFp && maskOk m
  | .vlog2 _ _ m t _ => t.isFp && maskOk m
  | .vcvt _ _ s m t _ => t != s && maskOk m
  | .vcmpFp k _ _ m r t _ => t.isFp && maskOk m && kOk k && decide (r.toNat ≤ 6)
  | .vredFp _ _ m o t _ => t.isFp && maskOk m && decide (o.toNat ≤ 2)
  | .vaddInt _ _ _ m t _ => t.isInt && maskOk m
  | .vsubInt _ _ _ m t _ => t.isInt && maskOk m
  | .vmulInt _ _ _ m t _ => t.isInt && maskOk m
  | .vminInt _ _ _ m t _ => t.isInt && maskOk m
  | .vmaxInt _ _ _ m t _ => t.isInt && maskOk m
  | .vabsInt _ _ m t _ => t.isInt && maskOk m
  | .vnegInt _ _ m t _ => t.isInt && maskOk m
  | .vand _ _ _ m t _ => t.isInt && maskOk m
  | .vor _ _ _ m t _ => t.isInt && maskOk m
  | .vxor _ _ _ m t _ => t.isInt && maskOk m
  | .vandn _ _ _ m t _ => t.isInt && maskOk m
  | .vshl _ _ _ m t _ => t.isInt && maskOk m
  | .vshr _ _ _ m t _ => t.isInt && maskOk m
  | .vsha _ _ _ m t _ => t.isInt && maskOk m
  | .vcmpInt k _ _ m r t _ => t.isInt && maskOk m && kOk k && decide (r.toNat ≤ 5)
  | .vredInt _ _ m o t _ => t.isInt && maskOk m && decide (o.toNat ≤ 2)
  | .vsel _ _ _ m _ _ => maskOk m && m != 0
  | .vperm _ _ _ m _ _ => maskOk m
  | .vslup _ _ _ m _ _ => maskOk m
  | .vsldn _ _ _ m _ _ => maskOk m
  | .viota _ m _ _ => maskOk m
  | .vpopk _ m _ _ => maskOk m && m != 0
  | .vld _ g m _ _ => g.srcOk && maskOk m
  | .vst _ g m _ _ => g.srcOk && maskOk m
  | .vlds _ g _ m _ _ => g.srcOk && maskOk m
  | .vsts _ g _ m _ _ => g.srcOk && maskOk m
  | .vgath _ g _ m _ _ => g.srcOk && maskOk m
  | .vscat _ g _ m _ _ => g.srcOk && maskOk m
  | .vldk k g _ => g.srcOk && kOk k
  | .vstk k g _ => g.srcOk && kOk k
  | .vbcst _ _ m _ _ => maskOk m
  | .vins _ _ _ _ _ => true
  | .vext _ _ _ _ => true
  | .vsetk k _ _ => kOk k
  | .vmovk k s _ => kOk k && kOk s
  | .mcfg a _ => a.srcOk
  | .mwl a b _ => a.srcOk && b.srcOk
  | .mma a b _ => a.srcOk && b.srcOk
  | .macp a b _ => a.srcOk && b.srcOk
  | .mclr a _ => a.srcOk
  | .mstage a b _ => a.srcOk && b.srcOk
  | .mpri _ _ => true
  | .mcan a _ => a.srcOk
  | .csetb a b _ _ f => a.srcOk && b.srcOk && decide (f.toNat ≤ 7)
  | .csetd a b _ _ k => a.srcOk && b.srcOk && decide (k.toNat ≤ 11)
  | .csetsScale a b _ _ => a.srcOk && b.srcOk
  | .csetsMcast a b _ _ => a.srcOk && b.srcOk
  | .cgo a b _ s t o => a.srcOk && b.srcOk && decide (o.toNat ≤ 2) && s != t
  | .cgoc a b _ s t o => a.srcOk && b.srcOk && decide (o.toNat ≤ 2) && s != t
  | .ccan _ => true
  | .issueTurn .. | .multiplyDone .. | .divideDone .. | .leaveLate .. | .lateValueReturn .. | .lateValueLand .. | .retire ..
  | .landingDrain .. | .withdraw .. | .contextWake .. | .killWaveFoot .. | .fetchServe .. | .fetchFill .. | .alignRelease ..
  | .boundary .. | .delegationPresent .. | .lateFaultReport .. | .preemptSuspend .. | .containmentKill .. | .gangStopArrive ..
  | .gangStop .. | .gangRelease .. | .gangCancel .. | .launchAccept .. | .taskGenerate .. | .taskAge .. | .taskBind ..
  | .bankPowerUpDone .. | .bankPowerDown .. | .stealRequest .. | .stealAnswer .. | .stealBackoff .. | .spawnerRescue ..
  | .threadDepart .. | .migrationArrival .. | .migrationResend .. | .arrivalMove .. | .launchSweep .. | .homeLoad ..
  | .homeWriteBack .. | .homeLdf .. | .homeLdff .. | .homeStf .. | .homeSete .. | .homeSetf .. | .homeAtomReserve ..
  | .homeAtomRelease .. | .homeWatch .. | .homeUnwatch .. | .homeWaitaRead .. | .homeFlush .. | .homeBinit .. | .homeArv ..
  | .homeBwt .. | .orphanMessage .. | .requestRefused .. | .requestResend .. | .wcbSend .. | .watchWake .. | .polledWatch ..
  | .invalidation .. | .replicaDrop .. | .dropNotice .. | .parityUpdate .. | .scrubPass .. | .scrubRequestBlock ..
  | .messageAccept .. | .messageResend .. | .inboxRefill .. | .portWordArrive .. | .timedMessageArrive .. | .announcement ..
  | .announcementReceive .. | .zeroLookaheadRound .. | .endOfTime .. | .energyRefill .. | .energyInterval ..
  | .vectorComplete .. | .vectorFault .. | .copyPieceDone .. | .copyComplete .. | .copyFault .. | .stagedEnter ..
  | .matrixStart .. | .planeLoadDone .. | .kstepDone .. | .matrixComplete .. | .matrixFault .. | .currentLimiterSample ..
  | .stampDraw .. | .cpushDurable .. | .unwindChoose .. | .routineBind .. | .sepiactlRetry .. | .sepiactlSkip ..
  | .sepiactlFail .. | .slateRetireBank .. | .slateFailParity .. | .slateClearCounts .. | .slatestWrite .. | .inboxRingSet ..
  | .fpmodeWrite .. | .fpflagsAccess .. | .mxCounterClear .. | .profClear .. | .trcctlWrite .. | .windowInvalidate ..
  | .windowOverflowPop .. | .windowOverflowRelease .. | .launchwWrite .. | .bootImageStaged .. | .unitReady ..
  | .fwfaultRead .. | .hmdataWrite .. | .hostMessageSend .. | .hmdropRead .. | .hbadwRead .. | .hostPostedWrite ..
  | .cxlMemWrite .. | .hostRead .. | .hostRegisterWrite .. | .dbgselWrite .. | .debugStop .. | .debugResume .. | .debugStep ..
  | .dbgdataAccess .. | .firmwareFault .. | .traceRecordWrite .. | .traceFault .. | .boundaryFailure .. | .flitReceive ..
  | .keyRollover .. | .peerPortDown .. | .correctionBeat .. | .frequencyChange .. | .frequencyResume .. | .thermalStep ..
  | .thermalTrip .. | .powerStepDown .. | .powerUp .. | .acknowledgementArrival .. | .backInvalidationAck ..
  | .spawnPushArrival .. | .stolenTasksArrival .. | .instructionCacheFill .. | .retentionRelease .. | .firmwareStagingWrite ..
  | .attestationRequest .. | .peerCopyPieceArrival .. => true

end Sys2Proof
end

