-- ==== Sys2Proof/Decode.lean ====
section
/-! DEFINITION. Decoding of instruction words (R92 to R113, fates 1 to 3 of R115), total on every
32-bit word, and the encoder that goes back. A word that is no instruction is rejected by name. -/

namespace Sys2Proof

/-- Why a word is ILLEGAL: the first of R115's fates 1 to 3 that applies. -/
inductive DecodeError where
  /-- fate 1: the major opcode is reserved -/
  | reservedMajor
  /-- fate 2: a minor, function, command or selector code is unassigned -/
  | unassignedCode
  /-- fate 3: a field that must be zero (or hold a fixed value) does not -/
  | reservedField
  /-- fates 2 and 3: a register, type, mask, size, scope or immediate breaks R95 to R113 -/
  | brokenLimit
  deriving DecidableEq, Repr

/-- Field `[lo+n-1 : lo]` of a word, as a number. -/
def fld (w : Word32) (lo n : Nat) : Nat := w.toNat / 2 ^ lo % 2 ^ n

/-- The register that a 5-bit field names (R95). -/
def Reg.ofNum (n : Nat) : Reg :=
  if h : n < 16 then .g ⟨n, h⟩ else
  match n with
  | 16 => .zr | 17 => .mq | 18 => .vq | 19 => .cq | 20 => .ib
  | 21 => .port .north | 22 => .port .east | 23 => .port .south | 24 => .port .west
  | 25 => .ix 0 | 26 => .ix 1 | 27 => .ix 2 | 28 => .ix 3
  | 29 => .wid | 30 => .gt | _ => .pc

/-- The size of a 2-bit code (R10). -/
def Size.ofNum : Nat → Size
  | 0 => .b | 1 => .h | 2 => .w | _ => .d

/-- The scope of a 3-bit code (R10, R32). -/
def Scope.ofNum : Nat → Scope
  | 0 => .th | 1 => .co | 2 => .cl | 3 => .di | 4 => .pk | 5 => .ho | 6 => .pe | _ => .sy

/-- The vector type of a 3-bit code (R10, R279). -/
def VType.ofNum : Nat → VType
  | 0 => .f32 | 1 => .f64 | 2 => .bf16 | 3 => .i32 | 4 => .n32 | 5 => .i64 | 6 => .i16 | _ => .i8

abbrev Decoded := Except DecodeError Instr

/-- The register in [25:21]. -/
def rd (w : Word32) : Reg := Reg.ofNum (fld w 21 5)
/-- The register in [20:16]. -/
def ra (w : Word32) : Reg := Reg.ofNum (fld w 16 5)
/-- The register in [15:11]. -/
def rb (w : Word32) : Reg := Reg.ofNum (fld w 11 5)
/-- The register in [22:18], the 5-bit field of the two F-V layouts of R93. -/
def rg (w : Word32) : Reg := Reg.ofNum (fld w 18 5)

/-- Major 0x01: the code in [10:0] selects the instruction. -/
def decodeAlu (w : Word32) : Decoded :=
  match fld w 0 11 with
  | 0x0 =>
    .ok (.add (rd w) (ra w) (rb w))
  | 0x1 =>
    .ok (.addw (rd w) (ra w) (rb w))
  | 0x10 =>
    .ok (.sub (rd w) (ra w) (rb w))
  | 0x11 =>
    .ok (.subw (rd w) (ra w) (rb w))
  | 0x20 =>
    .ok (.andR (rd w) (ra w) (rb w))
  | 0x30 =>
    .ok (.orR (rd w) (ra w) (rb w))
  | 0x40 =>
    .ok (.xorR (rd w) (ra w) (rb w))
  | 0x50 =>
    .ok (.andn (rd w) (ra w) (rb w))
  | 0x60 =>
    .ok (.orn (rd w) (ra w) (rb w))
  | 0x80 =>
    .ok (.shl (rd w) (ra w) (rb w))
  | 0x81 =>
    .ok (.shlw (rd w) (ra w) (rb w))
  | 0x90 =>
    .ok (.shr (rd w) (ra w) (rb w))
  | 0x91 =>
    .ok (.shrw (rd w) (ra w) (rb w))
  | 0xA0 =>
    .ok (.sha (rd w) (ra w) (rb w))
  | 0xA1 =>
    .ok (.shaw (rd w) (ra w) (rb w))
  | 0xB0 =>
    .ok (.rotl (rd w) (ra w) (rb w))
  | 0xB1 =>
    .ok (.rotlw (rd w) (ra w) (rb w))
  | 0xC0 | 0xC2 =>
    .ok (.shli (rd w) (ra w) (BitVec.ofNat 5 (fld w 11 5)) (BitVec.ofNat 1 (fld w 1 1)))
  | 0xC1 =>
    .ok (.shliw (rd w) (ra w) (BitVec.ofNat 5 (fld w 11 5)))
  | 0xD0 | 0xD2 =>
    .ok (.shri (rd w) (ra w) (BitVec.ofNat 5 (fld w 11 5)) (BitVec.ofNat 1 (fld w 1 1)))
  | 0xD1 =>
    .ok (.shriw (rd w) (ra w) (BitVec.ofNat 5 (fld w 11 5)))
  | 0xE0 | 0xE2 =>
    .ok (.shai (rd w) (ra w) (BitVec.ofNat 5 (fld w 11 5)) (BitVec.ofNat 1 (fld w 1 1)))
  | 0xE1 =>
    .ok (.shaiw (rd w) (ra w) (BitVec.ofNat 5 (fld w 11 5)))
  | 0x100 =>
    .ok (.slt (rd w) (ra w) (rb w))
  | 0x110 =>
    .ok (.sltn (rd w) (ra w) (rb w))
  | 0x120 =>
    .ok (.seq (rd w) (ra w) (rb w))
  | 0x130 =>
    .ok (.sne (rd w) (ra w) (rb w))
  | 0x140 =>
    .ok (.min (rd w) (ra w) (rb w))
  | 0x150 =>
    .ok (.max (rd w) (ra w) (rb w))
  | 0x160 =>
    .ok (.minn (rd w) (ra w) (rb w))
  | 0x170 =>
    .ok (.maxn (rd w) (ra w) (rb w))
  | 0x180 =>
    .ok (.sel (rd w) (ra w) (rb w))
  | 0x200 =>
    .ok (.spa (rd w) (ra w) (rb w))
  | 0x210 =>
    if fld w 11 5 = 0 then .ok (.spx (rd w) (ra w)) else .error .reservedField
  | 0x220 =>
    if fld w 11 5 = 0 then .ok (.home (rd w) (ra w)) else .error .reservedField
  | _ => .error .unassignedCode

/-- Major 0x02: the code in [10:0] selects the instruction. -/
def decodeMulDiv (w : Word32) : Decoded :=
  match fld w 0 11 with
  | 0x0 =>
    .ok (.mul (rd w) (ra w) (rb w))
  | 0x1 =>
    .ok (.mulw (rd w) (ra w) (rb w))
  | 0x10 =>
    .ok (.mulh (rd w) (ra w) (rb w))
  | 0x20 =>
    .ok (.mulhn (rd w) (ra w) (rb w))
  | 0x40 =>
    .ok (.div (rd w) (ra w) (rb w))
  | 0x41 =>
    .ok (.divw (rd w) (ra w) (rb w))
  | 0x50 =>
    .ok (.divn (rd w) (ra w) (rb w))
  | 0x51 =>
    .ok (.divnw (rd w) (ra w) (rb w))
  | 0x60 =>
    .ok (.rem (rd w) (ra w) (rb w))
  | 0x61 =>
    .ok (.remw (rd w) (ra w) (rb w))
  | 0x70 =>
    .ok (.remn (rd w) (ra w) (rb w))
  | 0x71 =>
    .ok (.remnw (rd w) (ra w) (rb w))
  | _ => .error .unassignedCode

/-- Major 0x03: the code in [10:0] selects the instruction. -/
def decodeBits (w : Word32) : Decoded :=
  match fld w 0 11 with
  | 0x0 =>
    if fld w 11 5 = 0 then .ok (.clz (rd w) (ra w)) else .error .reservedField
  | 0x1 =>
    if fld w 11 5 = 0 then .ok (.clzw (rd w) (ra w)) else .error .reservedField
  | 0x10 =>
    if fld w 11 5 = 0 then .ok (.ctz (rd w) (ra w)) else .error .reservedField
  | 0x11 =>
    if fld w 11 5 = 0 then .ok (.ctzw (rd w) (ra w)) else .error .reservedField
  | 0x20 =>
    if fld w 11 5 = 0 then .ok (.pop (rd w) (ra w)) else .error .reservedField
  | 0x21 =>
    if fld w 11 5 = 0 then .ok (.popw (rd w) (ra w)) else .error .reservedField
  | 0x30 =>
    if fld w 11 5 = 0 then .ok (.brev (rd w) (ra w)) else .error .reservedField
  | 0x31 =>
    if fld w 11 5 = 0 then .ok (.brevw (rd w) (ra w)) else .error .reservedField
  | 0x40 =>
    if fld w 11 5 = 0 then .ok (.bswap (rd w) (ra w)) else .error .reservedField
  | 0x41 =>
    if fld w 11 5 = 0 then .ok (.bswapw (rd w) (ra w)) else .error .reservedField
  | _ => .error .unassignedCode

/-- Major 0x0E: the code in [15:14] selects the instruction. -/
def decodeField (w : Word32) : Decoded :=
  match fld w 14 2 with
  | 0x0 =>
    if fld w 0 2 = 0 then .ok (.ext (rd w) (ra w) (BitVec.ofNat 6 (fld w 8 6)) (BitVec.ofNat 6 (fld w 2 6))) else .error .reservedField
  | 0x1 =>
    if fld w 0 2 = 0 then .ok (.extx (rd w) (ra w) (BitVec.ofNat 6 (fld w 8 6)) (BitVec.ofNat 6 (fld w 2 6))) else .error .reservedField
  | 0x2 =>
    if fld w 0 2 = 0 then .ok (.ins (rd w) (ra w) (BitVec.ofNat 6 (fld w 8 6)) (BitVec.ofNat 6 (fld w 2 6))) else .error .reservedField
  | _ => .error .unassignedCode

/-- Major 0x18: the code in [10:7] selects the instruction. -/
def decodeJump (w : Word32) : Decoded :=
  match fld w 7 4 with
  | 0x0 =>
    if fld w 0 7 = 0 ∧ fld w 11 5 = 0 ∧ fld w 21 5 = 0 then .ok (.jr (ra w)) else .error .reservedField
  | 0x1 =>
    if fld w 0 7 = 0 ∧ fld w 11 5 = 0 then .ok (.jalr (rd w) (ra w)) else .error .reservedField
  | _ => .error .unassignedCode

/-- Major 0x19: the code in [25:21] selects the instruction. -/
def decodeMark (w : Word32) : Decoded :=
  match fld w 21 5 with
  | 0x0 =>
    if fld w 16 5 = 0 then .ok (.align (BitVec.ofNat 16 (fld w 0 16))) else .error .reservedField
  | 0x1 =>
    if fld w 16 5 = 0 then .ok (.bsig (BitVec.ofNat 16 (fld w 0 16))) else .error .reservedField
  | 0x2 =>
    if fld w 16 5 = 0 then .ok (.bsigt (BitVec.ofNat 16 (fld w 0 16))) else .error .reservedField
  | _ => .error .unassignedCode

/-- Major 0x26: the code in [9:7] selects the instruction. -/
def decodeAtom (w : Word32) : Decoded :=
  match fld w 7 3 with
  | 0x0 =>
    if fld w 0 7 = 0 ∧ fld w 15 1 = 1 then .ok (.faa (rd w) (ra w) (fld w 14 1 == 1) (fld w 13 1 == 1) (Scope.ofNum (fld w 10 3))) else .error .reservedField
  | 0x1 =>
    if fld w 0 7 = 0 ∧ fld w 15 1 = 1 then .ok (.fxch (rd w) (ra w) (fld w 14 1 == 1) (fld w 13 1 == 1) (Scope.ofNum (fld w 10 3))) else .error .reservedField
  | 0x2 =>
    if fld w 0 7 = 0 ∧ fld w 15 1 = 1 then .ok (.fcas (rd w) (ra w) (fld w 14 1 == 1) (fld w 13 1 == 1) (Scope.ofNum (fld w 10 3))) else .error .reservedField
  | 0x3 =>
    if fld w 0 7 = 0 ∧ fld w 15 1 = 1 then .ok (.fmin (rd w) (ra w) (fld w 14 1 == 1) (fld w 13 1 == 1) (Scope.ofNum (fld w 10 3))) else .error .reservedField
  | 0x4 =>
    if fld w 0 7 = 0 ∧ fld w 15 1 = 1 then .ok (.fmax (rd w) (ra w) (fld w 14 1 == 1) (fld w 13 1 == 1) (Scope.ofNum (fld w 10 3))) else .error .reservedField
  | 0x5 =>
    if fld w 0 7 = 0 ∧ fld w 15 1 = 1 then .ok (.fand (rd w) (ra w) (fld w 14 1 == 1) (fld w 13 1 == 1) (Scope.ofNum (fld w 10 3))) else .error .reservedField
  | 0x6 =>
    if fld w 0 7 = 0 ∧ fld w 15 1 = 1 then .ok (.forA (rd w) (ra w) (fld w 14 1 == 1) (fld w 13 1 == 1) (Scope.ofNum (fld w 10 3))) else .error .reservedField
  | 0x7 =>
    if fld w 0 7 = 0 ∧ fld w 15 1 = 1 then .ok (.fxor (rd w) (ra w) (fld w 14 1 == 1) (fld w 13 1 == 1) (Scope.ofNum (fld w 10 3))) else .error .reservedField
  | _ => .error .unassignedCode

/-- Major 0x27: the code in [10:7] selects the instruction. -/
def decodeMemc (w : Word32) : Decoded :=
  match fld w 7 4 with
  | 0x0 =>
    if fld w 0 7 = 0 ∧ fld w 11 5 = 0 ∧ fld w 21 5 = 0 then .ok (.watch (ra w)) else .error .reservedField
  | 0x1 =>
    if fld w 0 7 = 0 ∧ fld w 11 5 = 0 ∧ fld w 21 5 = 0 then .ok (.unwatch (ra w)) else .error .reservedField
  | 0x2 =>
    if fld w 0 7 = 0 ∧ fld w 11 5 = 0 then .ok (.waita (rd w) (ra w)) else .error .reservedField
  | 0x3 =>
    if fld w 0 7 = 0 ∧ fld w 11 5 = 0 ∧ fld w 21 5 = 0 then .ok (.pref (ra w)) else .error .reservedField
  | 0x4 =>
    if fld w 0 4 = 0 ∧ fld w 11 15 = 0 then .ok (.fence (Scope.ofNum (fld w 4 3))) else .error .reservedField
  | 0x5 =>
    if fld w 0 7 = 0 ∧ fld w 11 5 = 0 then .ok (.migr (rd w) (ra w)) else .error .reservedField
  | 0x6 =>
    if fld w 0 7 = 0 ∧ fld w 11 5 = 0 ∧ fld w 21 5 = 0 then .ok (.sete (ra w)) else .error .reservedField
  | 0x7 =>
    if fld w 0 7 = 0 ∧ fld w 11 5 = 0 ∧ fld w 21 5 = 0 then .ok (.setf (ra w)) else .error .reservedField
  | 0x8 =>
    if fld w 0 7 = 0 ∧ fld w 11 5 = 0 ∧ fld w 21 5 = 0 then .ok (.flush (ra w)) else .error .reservedField
  | _ => .error .unassignedCode

/-- Major 0x28: the code in [10:7] selects the instruction. -/
def decodeMsg (w : Word32) : Decoded :=
  match fld w 7 4 with
  | 0x0 =>
    if fld w 0 7 = 0 ∧ fld w 21 5 = 0 then .ok (.send (ra w) (rb w)) else .error .reservedField
  | 0x1 =>
    if fld w 0 7 = 0 ∧ fld w 21 5 = 0 then .ok (.tsend (ra w) (rb w)) else .error .reservedField
  | 0x2 =>
    if fld w 0 7 = 0 ∧ fld w 11 10 = 0 then .ok (.tdeq (rd w)) else .error .reservedField
  | 0x3 =>
    if fld w 0 7 = 0 ∧ fld w 11 15 = 0 then .ok (.tnull) else .error .reservedField
  | 0x4 =>
    if fld w 0 7 = 0 ∧ fld w 11 5 = 0 ∧ fld w 21 5 = 0 then .ok (.advt (ra w)) else .error .reservedField
  | _ => .error .unassignedCode

/-- Major 0x29: the code in [10:8] selects the instruction. -/
def decodeBar (w : Word32) : Decoded :=
  match fld w 8 3 with
  | 0x0 =>
    if fld w 0 8 = 0 ∧ fld w 21 5 = 0 then .ok (.binit (ra w) (rb w)) else .error .reservedField
  | 0x1 =>
    if fld w 11 5 = 0 then .ok (.arv (rd w) (ra w) (fld w 7 1 == 1) (Scope.ofNum (fld w 4 3)) (BitVec.ofNat 4 (fld w 0 4))) else .error .reservedField
  | 0x2 =>
    if fld w 11 5 = 0 ∧ fld w 21 5 = 0 then .ok (.arvp (ra w) (fld w 7 1 == 1) (Scope.ofNum (fld w 4 3)) (BitVec.ofNat 4 (fld w 0 4))) else .error .reservedField
  | 0x3 =>
    if fld w 0 4 = 0 ∧ fld w 21 5 = 0 then .ok (.bwt (ra w) (rb w) (fld w 7 1 == 1) (Scope.ofNum (fld w 4 3))) else .error .reservedField
  | _ => .error .unassignedCode

/-- Major 0x2B: the code in [10:7] selects the instruction. -/
def decodeTask (w : Word32) : Decoded :=
  match fld w 7 4 with
  | 0x0 =>
    if fld w 0 4 = 0 ∧ fld w 21 5 = 0 then .ok (.spawn (ra w) (rb w) (BitVec.ofNat 3 (fld w 4 3))) else .error .reservedField
  | 0x1 =>
    if fld w 0 7 = 0 ∧ fld w 11 15 = 0 then .ok (.wfw) else .error .reservedField
  | 0x2 =>
    if fld w 0 7 = 0 ∧ fld w 11 15 = 0 then .ok (.halt) else .error .reservedField
  | 0x3 =>
    if fld w 0 7 = 0 ∧ fld w 11 15 = 0 then .ok (.yield) else .error .reservedField
  | 0x4 =>
    if fld w 0 7 = 0 ∧ fld w 21 5 = 0 then .ok (.ctxs (ra w) (rb w)) else .error .reservedField
  | 0x5 =>
    if fld w 0 7 = 0 ∧ fld w 11 5 = 0 ∧ fld w 21 5 = 0 then .ok (.ctxr (ra w)) else .error .reservedField
  | 0x6 =>
    if fld w 0 7 = 0 ∧ fld w 11 5 = 0 ∧ fld w 21 5 = 0 then .ok (.prmt (ra w)) else .error .reservedField
  | 0x7 =>
    if fld w 0 7 = 0 ∧ fld w 11 5 = 0 ∧ fld w 21 5 = 0 then .ok (.lnch (ra w)) else .error .reservedField
  | _ => .error .unassignedCode

/-- Major 0x2C: the code in [10:7] selects the instruction. -/
def decodeAct (w : Word32) : Decoded :=
  match fld w 7 4 with
  | 0x0 =>
    if fld w 0 7 = 0 ∧ fld w 11 5 = 0 then .ok (.actb (rd w) (ra w)) else .error .reservedField
  | 0x1 =>
    if fld w 0 7 = 0 ∧ fld w 11 5 = 0 ∧ fld w 21 5 = 0 then .ok (.actj (ra w)) else .error .reservedField
  | 0x2 =>
    if fld w 0 7 = 0 ∧ fld w 11 15 = 0 then .ok (.actd) else .error .reservedField
  | 0x3 =>
    if fld w 0 7 = 0 ∧ fld w 11 5 = 0 ∧ fld w 21 5 = 0 then .ok (.acte (ra w)) else .error .reservedField
  | 0x4 =>
    if fld w 0 7 = 0 ∧ fld w 11 5 = 0 ∧ fld w 21 5 = 0 then .ok (.acta (ra w)) else .error .reservedField
  | 0x5 =>
    if fld w 0 7 = 0 ∧ fld w 11 5 = 0 then .ok (.actst (rd w) (ra w)) else .error .reservedField
  | 0x6 =>
    if fld w 0 7 = 0 ∧ fld w 21 5 = 0 then .ok (.cpush (ra w) (rb w)) else .error .reservedField
  | 0x7 =>
    if fld w 0 7 = 0 ∧ fld w 11 5 = 0 ∧ fld w 21 5 = 0 then .ok (.cret (ra w)) else .error .reservedField
  | _ => .error .unassignedCode

/-- Major 0x30: the code in [3:0] selects the instruction. -/
def decodeSys (w : Word32) : Decoded :=
  match fld w 0 4 with
  | 0x0 =>
    if fld w 16 5 = 0 then .ok (.mfs (rd w) (BitVec.ofNat 12 (fld w 4 12))) else .error .reservedField
  | 0x1 =>
    if fld w 21 5 = 0 then .ok (.mts (ra w) (BitVec.ofNat 12 (fld w 4 12))) else .error .reservedField
  | _ => .error .unassignedCode

/-- Major 0x31: the code in [25:21] selects the instruction. -/
def decodeTrap (w : Word32) : Decoded :=
  match fld w 21 5 with
  | 0x0 =>
    if fld w 16 5 = 0 then .ok (.trap (BitVec.ofNat 16 (fld w 0 16))) else .error .reservedField
  | 0x1 =>
    if fld w 0 21 = 0 then .ok (.tret) else .error .reservedField
  | 0x2 =>
    if fld w 2 2 = 0 ∧ fld w 8 8 = 0 then .ok (.settle (ra w) (BitVec.ofNat 4 (fld w 4 4)) (BitVec.ofNat 2 (fld w 0 2))) else .error .reservedField
  | 0x3 =>
    if fld w 16 5 = 0 then .ok (.brk (BitVec.ofNat 16 (fld w 0 16))) else .error .reservedField
  | 0x4 =>
    .ok (.scrub (ra w) (BitVec.ofNat 16 (fld w 0 16)))
  | _ => .error .unassignedCode

/-- Major 0x38: the code in [10:5] selects the instruction. -/
def decodeVecFp (w : Word32) : Decoded :=
  match fld w 5 6 with
  | 0x0 =>
    if fld w 14 3 = 0 then .ok (.vaddFp (BitVec.ofNat 3 (fld w 23 3)) (BitVec.ofNat 3 (fld w 20 3)) (BitVec.ofNat 3 (fld w 17 3)) (BitVec.ofNat 3 (fld w 11 3)) (VType.ofNum (fld w 2 3)) (BitVec.ofNat 2 (fld w 0 2))) else .error .reservedField
  | 0x1 =>
    if fld w 14 3 = 0 then .ok (.vsubFp (BitVec.ofNat 3 (fld w 23 3)) (BitVec.ofNat 3 (fld w 20 3)) (BitVec.ofNat 3 (fld w 17 3)) (BitVec.ofNat 3 (fld w 11 3)) (VType.ofNum (fld w 2 3)) (BitVec.ofNat 2 (fld w 0 2))) else .error .reservedField
  | 0x2 =>
    if fld w 14 3 = 0 then .ok (.vmulFp (BitVec.ofNat 3 (fld w 23 3)) (BitVec.ofNat 3 (fld w 20 3)) (BitVec.ofNat 3 (fld w 17 3)) (BitVec.ofNat 3 (fld w 11 3)) (VType.ofNum (fld w 2 3)) (BitVec.ofNat 2 (fld w 0 2))) else .error .reservedField
  | 0x3 =>
    .ok (.vfma (BitVec.ofNat 3 (fld w 23 3)) (BitVec.ofNat 3 (fld w 20 3)) (BitVec.ofNat 3 (fld w 17 3)) (BitVec.ofNat 3 (fld w 14 3)) (BitVec.ofNat 3 (fld w 11 3)) (VType.ofNum (fld w 2 3)) (BitVec.ofNat 2 (fld w 0 2)))
  | 0x4 =>
    .ok (.vfms (BitVec.ofNat 3 (fld w 23 3)) (BitVec.ofNat 3 (fld w 20 3)) (BitVec.ofNat 3 (fld w 17 3)) (BitVec.ofNat 3 (fld w 14 3)) (BitVec.ofNat 3 (fld w 11 3)) (VType.ofNum (fld w 2 3)) (BitVec.ofNat 2 (fld w 0 2)))
  | 0x5 =>
    if fld w 14 3 = 0 then .ok (.vminFp (BitVec.ofNat 3 (fld w 23 3)) (BitVec.ofNat 3 (fld w 20 3)) (BitVec.ofNat 3 (fld w 17 3)) (BitVec.ofNat 3 (fld w 11 3)) (VType.ofNum (fld w 2 3)) (BitVec.ofNat 2 (fld w 0 2))) else .error .reservedField
  | 0x6 =>
    if fld w 14 3 = 0 then .ok (.vmaxFp (BitVec.ofNat 3 (fld w 23 3)) (BitVec.ofNat 3 (fld w 20 3)) (BitVec.ofNat 3 (fld w 17 3)) (BitVec.ofNat 3 (fld w 11 3)) (VType.ofNum (fld w 2 3)) (BitVec.ofNat 2 (fld w 0 2))) else .error .reservedField
  | 0x7 =>
    if fld w 14 6 = 0 then .ok (.vabsFp (BitVec.ofNat 3 (fld w 23 3)) (BitVec.ofNat 3 (fld w 20 3)) (BitVec.ofNat 3 (fld w 11 3)) (VType.ofNum (fld w 2 3)) (BitVec.ofNat 2 (fld w 0 2))) else .error .reservedField
  | 0x8 =>
    if fld w 14 6 = 0 then .ok (.vnegFp (BitVec.ofNat 3 (fld w 23 3)) (BitVec.ofNat 3 (fld w 20 3)) (BitVec.ofNat 3 (fld w 11 3)) (VType.ofNum (fld w 2 3)) (BitVec.ofNat 2 (fld w 0 2))) else .error .reservedField
  | 0x9 =>
    if fld w 14 3 = 0 then .ok (.vdiv (BitVec.ofNat 3 (fld w 23 3)) (BitVec.ofNat 3 (fld w 20 3)) (BitVec.ofNat 3 (fld w 17 3)) (BitVec.ofNat 3 (fld w 11 3)) (VType.ofNum (fld w 2 3)) (BitVec.ofNat 2 (fld w 0 2))) else .error .reservedField
  | 0xA =>
    if fld w 14 6 = 0 then .ok (.vsqrt (BitVec.ofNat 3 (fld w 23 3)) (BitVec.ofNat 3 (fld w 20 3)) (BitVec.ofNat 3 (fld w 11 3)) (VType.ofNum (fld w 2 3)) (BitVec.ofNat 2 (fld w 0 2))) else .error .reservedField
  | 0xB =>
    if fld w 14 6 = 0 then .ok (.vrcp (BitVec.ofNat 3 (fld w 23 3)) (BitVec.ofNat 3 (fld w 20 3)) (BitVec.ofNat 3 (fld w 11 3)) (VType.ofNum (fld w 2 3)) (BitVec.ofNat 2 (fld w 0 2))) else .error .reservedField
  | 0xC =>
    if fld w 14 6 = 0 then .ok (.vrsq (BitVec.ofNat 3 (fld w 23 3)) (BitVec.ofNat 3 (fld w 20 3)) (BitVec.ofNat 3 (fld w 11 3)) (VType.ofNum (fld w 2 3)) (BitVec.ofNat 2 (fld w 0 2))) else .error .reservedField
  | 0xD =>
    if fld w 14 6 = 0 then .ok (.vexp2 (BitVec.ofNat 3 (fld w 23 3)) (BitVec.ofNat 3 (fld w 20 3)) (BitVec.ofNat 3 (fld w 11 3)) (VType.ofNum (fld w 2 3)) (BitVec.ofNat 2 (fld w 0 2))) else .error .reservedField
  | 0xE =>
    if fld w 14 6 = 0 then .ok (.vlog2 (BitVec.ofNat 3 (fld w 23 3)) (BitVec.ofNat 3 (fld w 20 3)) (BitVec.ofNat 3 (fld w 11 3)) (VType.ofNum (fld w 2 3)) (BitVec.ofNat 2 (fld w 0 2))) else .error .reservedField
  | 0x10 =>
    if fld w 17 3 = 0 then .ok (.vcvt (BitVec.ofNat 3 (fld w 23 3)) (BitVec.ofNat 3 (fld w 20 3)) (VType.ofNum (fld w 14 3)) (BitVec.ofNat 3 (fld w 11 3)) (VType.ofNum (fld w 2 3)) (BitVec.ofNat 2 (fld w 0 2))) else .error .reservedField
  | 0x18 | 0x19 | 0x1A | 0x1B | 0x1C | 0x1D | 0x1E | 0x1F =>
    if fld w 14 3 = 0 then .ok (.vcmpFp (BitVec.ofNat 3 (fld w 23 3)) (BitVec.ofNat 3 (fld w 20 3)) (BitVec.ofNat 3 (fld w 17 3)) (BitVec.ofNat 3 (fld w 11 3)) (BitVec.ofNat 3 (fld w 5 3)) (VType.ofNum (fld w 2 3)) (BitVec.ofNat 2 (fld w 0 2))) else .error .reservedField
  | 0x20 | 0x21 | 0x22 | 0x23 =>
    if fld w 14 6 = 0 then .ok (.vredFp (BitVec.ofNat 3 (fld w 23 3)) (BitVec.ofNat 3 (fld w 20 3)) (BitVec.ofNat 3 (fld w 11 3)) (BitVec.ofNat 2 (fld w 5 2)) (VType.ofNum (fld w 2 3)) (BitVec.ofNat 2 (fld w 0 2))) else .error .reservedField
  | _ => .error .unassignedCode

/-- Major 0x39: the code in [10:5] selects the instruction. -/
def decodeVecInt (w : Word32) : Decoded :=
  match fld w 5 6 with
  | 0x0 =>
    if fld w 14 3 = 0 then .ok (.vaddInt (BitVec.ofNat 3 (fld w 23 3)) (BitVec.ofNat 3 (fld w 20 3)) (BitVec.ofNat 3 (fld w 17 3)) (BitVec.ofNat 3 (fld w 11 3)) (VType.ofNum (fld w 2 3)) (BitVec.ofNat 2 (fld w 0 2))) else .error .reservedField
  | 0x1 =>
    if fld w 14 3 = 0 then .ok (.vsubInt (BitVec.ofNat 3 (fld w 23 3)) (BitVec.ofNat 3 (fld w 20 3)) (BitVec.ofNat 3 (fld w 17 3)) (BitVec.ofNat 3 (fld w 11 3)) (VType.ofNum (fld w 2 3)) (BitVec.ofNat 2 (fld w 0 2))) else .error .reservedField
  | 0x2 =>
    if fld w 14 3 = 0 then .ok (.vmulInt (BitVec.ofNat 3 (fld w 23 3)) (BitVec.ofNat 3 (fld w 20 3)) (BitVec.ofNat 3 (fld w 17 3)) (BitVec.ofNat 3 (fld w 11 3)) (VType.ofNum (fld w 2 3)) (BitVec.ofNat 2 (fld w 0 2))) else .error .reservedField
  | 0x5 =>
    if fld w 14 3 = 0 then .ok (.vminInt (BitVec.ofNat 3 (fld w 23 3)) (BitVec.ofNat 3 (fld w 20 3)) (BitVec.ofNat 3 (fld w 17 3)) (BitVec.ofNat 3 (fld w 11 3)) (VType.ofNum (fld w 2 3)) (BitVec.ofNat 2 (fld w 0 2))) else .error .reservedField
  | 0x6 =>
    if fld w 14 3 = 0 then .ok (.vmaxInt (BitVec.ofNat 3 (fld w 23 3)) (BitVec.ofNat 3 (fld w 20 3)) (BitVec.ofNat 3 (fld w 17 3)) (BitVec.ofNat 3 (fld w 11 3)) (VType.ofNum (fld w 2 3)) (BitVec.ofNat 2 (fld w 0 2))) else .error .reservedField
  | 0x7 =>
    if fld w 14 6 = 0 then .ok (.vabsInt (BitVec.ofNat 3 (fld w 23 3)) (BitVec.ofNat 3 (fld w 20 3)) (BitVec.ofNat 3 (fld w 11 3)) (VType.ofNum (fld w 2 3)) (BitVec.ofNat 2 (fld w 0 2))) else .error .reservedField
  | 0x8 =>
    if fld w 14 6 = 0 then .ok (.vnegInt (BitVec.ofNat 3 (fld w 23 3)) (BitVec.ofNat 3 (fld w 20 3)) (BitVec.ofNat 3 (fld w 11 3)) (VType.ofNum (fld w 2 3)) (BitVec.ofNat 2 (fld w 0 2))) else .error .reservedField
  | 0x11 =>
    if fld w 14 3 = 0 then .ok (.vand (BitVec.ofNat 3 (fld w 23 3)) (BitVec.ofNat 3 (fld w 20 3)) (BitVec.ofNat 3 (fld w 17 3)) (BitVec.ofNat 3 (fld w 11 3)) (VType.ofNum (fld w 2 3)) (BitVec.ofNat 2 (fld w 0 2))) else .error .reservedField
  | 0x12 =>
    if fld w 14 3 = 0 then .ok (.vor (BitVec.ofNat 3 (fld w 23 3)) (BitVec.ofNat 3 (fld w 20 3)) (BitVec.ofNat 3 (fld w 17 3)) (BitVec.ofNat 3 (fld w 11 3)) (VType.ofNum (fld w 2 3)) (BitVec.ofNat 2 (fld w 0 2))) else .error .reservedField
  | 0x13 =>
    if fld w 14 3 = 0 then .ok (.vxor (BitVec.ofNat 3 (fld w 23 3)) (BitVec.ofNat 3 (fld w 20 3)) (BitVec.ofNat 3 (fld w 17 3)) (BitVec.ofNat 3 (fld w 11 3)) (VType.ofNum (fld w 2 3)) (BitVec.ofNat 2 (fld w 0 2))) else .error .reservedField
  | 0x14 =>
    if fld w 14 3 = 0 then .ok (.vandn (BitVec.ofNat 3 (fld w 23 3)) (BitVec.ofNat 3 (fld w 20 3)) (BitVec.ofNat 3 (fld w 17 3)) (BitVec.ofNat 3 (fld w 11 3)) (VType.ofNum (fld w 2 3)) (BitVec.ofNat 2 (fld w 0 2))) else .error .reservedField
  | 0x15 =>
    if fld w 14 3 = 0 then .ok (.vshl (BitVec.ofNat 3 (fld w 23 3)) (BitVec.ofNat 3 (fld w 20 3)) (BitVec.ofNat 3 (fld w 17 3)) (BitVec.ofNat 3 (fld w 11 3)) (VType.ofNum (fld w 2 3)) (BitVec.ofNat 2 (fld w 0 2))) else .error .reservedField
  | 0x16 =>
    if fld w 14 3 = 0 then .ok (.vshr (BitVec.ofNat 3 (fld w 23 3)) (BitVec.ofNat 3 (fld w 20 3)) (BitVec.ofNat 3 (fld w 17 3)) (BitVec.ofNat 3 (fld w 11 3)) (VType.ofNum (fld w 2 3)) (BitVec.ofNat 2 (fld w 0 2))) else .error .reservedField
  | 0x17 =>
    if fld w 14 3 = 0 then .ok (.vsha (BitVec.ofNat 3 (fld w 23 3)) (BitVec.ofNat 3 (fld w 20 3)) (BitVec.ofNat 3 (fld w 17 3)) (BitVec.ofNat 3 (fld w 11 3)) (VType.ofNum (fld w 2 3)) (BitVec.ofNat 2 (fld w 0 2))) else .error .reservedField
  | 0x18 | 0x19 | 0x1A | 0x1B | 0x1C | 0x1D | 0x1E | 0x1F =>
    if fld w 14 3 = 0 then .ok (.vcmpInt (BitVec.ofNat 3 (fld w 23 3)) (BitVec.ofNat 3 (fld w 20 3)) (BitVec.ofNat 3 (fld w 17 3)) (BitVec.ofNat 3 (fld w 11 3)) (BitVec.ofNat 3 (fld w 5 3)) (VType.ofNum (fld w 2 3)) (BitVec.ofNat 2 (fld w 0 2))) else .error .reservedField
  | 0x20 | 0x21 | 0x22 | 0x23 =>
    if fld w 14 6 = 0 then .ok (.vredInt (BitVec.ofNat 3 (fld w 23 3)) (BitVec.ofNat 3 (fld w 20 3)) (BitVec.ofNat 3 (fld w 11 3)) (BitVec.ofNat 2 (fld w 5 2)) (VType.ofNum (fld w 2 3)) (BitVec.ofNat 2 (fld w 0 2))) else .error .reservedField
  | 0x28 =>
    if fld w 14 3 = 0 then .ok (.vsel (BitVec.ofNat 3 (fld w 23 3)) (BitVec.ofNat 3 (fld w 20 3)) (BitVec.ofNat 3 (fld w 17 3)) (BitVec.ofNat 3 (fld w 11 3)) (VType.ofNum (fld w 2 3)) (BitVec.ofNat 2 (fld w 0 2))) else .error .reservedField
  | 0x29 =>
    if fld w 14 3 = 0 then .ok (.vperm (BitVec.ofNat 3 (fld w 23 3)) (BitVec.ofNat 3 (fld w 20 3)) (BitVec.ofNat 3 (fld w 17 3)) (BitVec.ofNat 3 (fld w 11 3)) (VType.ofNum (fld w 2 3)) (BitVec.ofNat 2 (fld w 0 2))) else .error .reservedField
  | 0x2A =>
    if fld w 14 3 = 0 then .ok (.vslup (BitVec.ofNat 3 (fld w 23 3)) (BitVec.ofNat 3 (fld w 20 3)) (BitVec.ofNat 3 (fld w 17 3)) (BitVec.ofNat 3 (fld w 11 3)) (VType.ofNum (fld w 2 3)) (BitVec.ofNat 2 (fld w 0 2))) else .error .reservedField
  | 0x2B =>
    if fld w 14 3 = 0 then .ok (.vsldn (BitVec.ofNat 3 (fld w 23 3)) (BitVec.ofNat 3 (fld w 20 3)) (BitVec.ofNat 3 (fld w 17 3)) (BitVec.ofNat 3 (fld w 11 3)) (VType.ofNum (fld w 2 3)) (BitVec.ofNat 2 (fld w 0 2))) else .error .reservedField
  | 0x2C =>
    if fld w 14 9 = 0 then .ok (.viota (BitVec.ofNat 3 (fld w 23 3)) (BitVec.ofNat 3 (fld w 11 3)) (VType.ofNum (fld w 2 3)) (BitVec.ofNat 2 (fld w 0 2))) else .error .reservedField
  | 0x2D =>
    if fld w 14 9 = 0 then .ok (.vpopk (BitVec.ofNat 3 (fld w 23 3)) (BitVec.ofNat 3 (fld w 11 3)) (VType.ofNum (fld w 2 3)) (BitVec.ofNat 2 (fld w 0 2))) else .error .reservedField
  | _ => .error .unassignedCode

/-- Major 0x3A: the code in [10:5] selects the instruction. -/
def decodeVecMem (w : Word32) : Decoded :=
  match fld w 5 6 with
  | 0x0 =>
    if fld w 14 4 = 0 then .ok (.vld (BitVec.ofNat 3 (fld w 23 3)) (rg w) (BitVec.ofNat 3 (fld w 11 3)) (VType.ofNum (fld w 2 3)) (BitVec.ofNat 2 (fld w 0 2))) else .error .reservedField
  | 0x1 =>
    if fld w 14 4 = 0 then .ok (.vst (BitVec.ofNat 3 (fld w 23 3)) (rg w) (BitVec.ofNat 3 (fld w 11 3)) (VType.ofNum (fld w 2 3)) (BitVec.ofNat 2 (fld w 0 2))) else .error .reservedField
  | 0x2 =>
    .ok (.vlds (BitVec.ofNat 3 (fld w 23 3)) (rg w) (BitVec.ofNat 4 (fld w 14 4)) (BitVec.ofNat 3 (fld w 11 3)) (VType.ofNum (fld w 2 3)) (BitVec.ofNat 2 (fld w 0 2)))
  | 0x3 =>
    .ok (.vsts (BitVec.ofNat 3 (fld w 23 3)) (rg w) (BitVec.ofNat 4 (fld w 14 4)) (BitVec.ofNat 3 (fld w 11 3)) (VType.ofNum (fld w 2 3)) (BitVec.ofNat 2 (fld w 0 2)))
  | 0x4 =>
    if fld w 14 1 = 0 then .ok (.vgath (BitVec.ofNat 3 (fld w 23 3)) (rg w) (BitVec.ofNat 3 (fld w 15 3)) (BitVec.ofNat 3 (fld w 11 3)) (VType.ofNum (fld w 2 3)) (BitVec.ofNat 2 (fld w 0 2))) else .error .reservedField
  | 0x5 =>
    if fld w 14 1 = 0 then .ok (.vscat (BitVec.ofNat 3 (fld w 23 3)) (rg w) (BitVec.ofNat 3 (fld w 15 3)) (BitVec.ofNat 3 (fld w 11 3)) (VType.ofNum (fld w 2 3)) (BitVec.ofNat 2 (fld w 0 2))) else .error .reservedField
  | 0x6 =>
    if fld w 2 3 = 0 ∧ fld w 11 7 = 0 then .ok (.vldk (BitVec.ofNat 3 (fld w 23 3)) (rg w) (BitVec.ofNat 2 (fld w 0 2))) else .error .reservedField
  | 0x7 =>
    if fld w 2 3 = 0 ∧ fld w 11 7 = 0 then .ok (.vstk (BitVec.ofNat 3 (fld w 23 3)) (rg w) (BitVec.ofNat 2 (fld w 0 2))) else .error .reservedField
  | _ => .error .unassignedCode

/-- Major 0x3B: the code in [10:5] selects the instruction. -/
def decodeVecScalar (w : Word32) : Decoded :=
  match fld w 5 6 with
  | 0x0 =>
    if fld w 14 4 = 0 then .ok (.vbcst (BitVec.ofNat 3 (fld w 23 3)) (rg w) (BitVec.ofNat 3 (fld w 11 3)) (VType.ofNum (fld w 2 3)) (BitVec.ofNat 2 (fld w 0 2))) else .error .reservedField
  | 0x1 =>
    if fld w 11 3 = 0 then .ok (.vins (BitVec.ofNat 3 (fld w 23 3)) (rg w) (BitVec.ofNat 4 (fld w 14 4)) (VType.ofNum (fld w 2 3)) (BitVec.ofNat 2 (fld w 0 2))) else .error .reservedField
  | 0x2 =>
    if fld w 11 3 = 0 ∧ fld w 18 5 = 0 then .ok (.vext (BitVec.ofNat 3 (fld w 23 3)) (BitVec.ofNat 4 (fld w 14 4)) (VType.ofNum (fld w 2 3)) (BitVec.ofNat 2 (fld w 0 2))) else .error .reservedField
  | 0x3 =>
    if fld w 2 3 = 0 ∧ fld w 11 7 = 0 then .ok (.vsetk (BitVec.ofNat 3 (fld w 23 3)) (rg w) (BitVec.ofNat 2 (fld w 0 2))) else .error .reservedField
  | 0x4 =>
    if fld w 2 3 = 0 ∧ fld w 11 4 = 0 ∧ fld w 18 5 = 0 then .ok (.vmovk (BitVec.ofNat 3 (fld w 23 3)) (BitVec.ofNat 3 (fld w 15 3)) (BitVec.ofNat 2 (fld w 0 2))) else .error .reservedField
  | _ => .error .unassignedCode

/-- Major 0x3C: the code in [13:10] selects the instruction. -/
def decodeMatrix (w : Word32) : Decoded :=
  match fld w 10 4 with
  | 0x0 =>
    if fld w 0 10 = 0 ∧ fld w 16 5 = 0 then .ok (.mcfg (rd w) (BitVec.ofNat 2 (fld w 14 2))) else .error .reservedField
  | 0x1 =>
    if fld w 0 10 = 0 then .ok (.mwl (rd w) (ra w) (BitVec.ofNat 2 (fld w 14 2))) else .error .reservedField
  | 0x2 =>
    if fld w 0 10 = 0 then .ok (.mma (rd w) (ra w) (BitVec.ofNat 2 (fld w 14 2))) else .error .reservedField
  | 0x3 =>
    if fld w 0 10 = 0 then .ok (.macp (rd w) (ra w) (BitVec.ofNat 2 (fld w 14 2))) else .error .reservedField
  | 0x4 =>
    if fld w 0 10 = 0 ∧ fld w 16 5 = 0 then .ok (.mclr (rd w) (BitVec.ofNat 2 (fld w 14 2))) else .error .reservedField
  | 0x5 =>
    if fld w 0 10 = 0 then .ok (.mstage (rd w) (ra w) (BitVec.ofNat 2 (fld w 14 2))) else .error .reservedField
  | 0x6 =>
    if fld w 2 8 = 0 ∧ fld w 16 10 = 0 then .ok (.mpri (BitVec.ofNat 2 (fld w 14 2)) (BitVec.ofNat 2 (fld w 0 2))) else .error .reservedField
  | 0x7 =>
    if fld w 0 10 = 0 ∧ fld w 16 5 = 0 then .ok (.mcan (rd w) (BitVec.ofNat 2 (fld w 14 2))) else .error .reservedField
  | _ => .error .unassignedCode

/-- Major 0x3D: the code in [13:10] selects the instruction. -/
def decodeCopy (w : Word32) : Decoded :=
  match fld w 10 4 with
  | 0x0 =>
    if fld w 0 4 = 0 then .ok (.csetb (rd w) (ra w) (BitVec.ofNat 2 (fld w 14 2)) (BitVec.ofNat 2 (fld w 8 2)) (BitVec.ofNat 4 (fld w 4 4))) else .error .reservedField
  | 0x1 =>
    if fld w 0 4 = 0 then .ok (.csetd (rd w) (ra w) (BitVec.ofNat 2 (fld w 14 2)) (BitVec.ofNat 2 (fld w 8 2)) (BitVec.ofNat 4 (fld w 4 4))) else .error .reservedField
  | 0x2 =>
    if fld w 0 4 = 0 then
      match fld w 4 4 with
      | 0 => .ok (.csetsScale (rd w) (ra w) (BitVec.ofNat 2 (fld w 14 2)) (BitVec.ofNat 2 (fld w 8 2)))
      | 1 => .ok (.csetsMcast (rd w) (ra w) (BitVec.ofNat 2 (fld w 14 2)) (BitVec.ofNat 2 (fld w 8 2)))
      | _ => .error .unassignedCode
    else .error .reservedField
  | 0x3 =>
    if fld w 0 3 = 0 then .ok (.cgo (rd w) (ra w) (BitVec.ofNat 2 (fld w 14 2)) (BitVec.ofNat 2 (fld w 8 2)) (BitVec.ofNat 2 (fld w 6 2)) (BitVec.ofNat 3 (fld w 3 3))) else .error .reservedField
  | 0x4 =>
    if fld w 0 3 = 0 then .ok (.cgoc (rd w) (ra w) (BitVec.ofNat 2 (fld w 14 2)) (BitVec.ofNat 2 (fld w 8 2)) (BitVec.ofNat 2 (fld w 6 2)) (BitVec.ofNat 3 (fld w 3 3))) else .error .reservedField
  | 0x5 =>
    if fld w 0 10 = 0 ∧ fld w 16 10 = 0 then .ok (.ccan (BitVec.ofNat 2 (fld w 14 2))) else .error .reservedField
  | _ => .error .unassignedCode

/-- The instruction that a word's fields select, before the limits of R95 to R113 are checked. -/
def decodeRaw (w : Word32) : Decoded :=
  match fld w 26 6 with
  | 0x01 => decodeAlu w
  | 0x02 => decodeMulDiv w
  | 0x03 => decodeBits w
  | 0x04 => .ok (.addi (rd w) (ra w) (BitVec.ofNat 16 (fld w 0 16)))
  | 0x05 => .ok (.andi (rd w) (ra w) (BitVec.ofNat 16 (fld w 0 16)))
  | 0x06 => .ok (.ori (rd w) (ra w) (BitVec.ofNat 16 (fld w 0 16)))
  | 0x07 => .ok (.xori (rd w) (ra w) (BitVec.ofNat 16 (fld w 0 16)))
  | 0x08 => .ok (.slti (rd w) (ra w) (BitVec.ofNat 16 (fld w 0 16)))
  | 0x09 => .ok (.sltni (rd w) (ra w) (BitVec.ofNat 16 (fld w 0 16)))
  | 0x0A => if fld w 16 5 = 0 then .ok (.li (rd w) (BitVec.ofNat 16 (fld w 0 16))) else .error .reservedField
  | 0x0B => if fld w 16 5 = 0 then .ok (.lih (rd w) (BitVec.ofNat 16 (fld w 0 16))) else .error .reservedField
  | 0x0C => .ok (.muli (rd w) (ra w) (BitVec.ofNat 16 (fld w 0 16)))
  | 0x0D => .ok (.addiw (rd w) (ra w) (BitVec.ofNat 16 (fld w 0 16)))
  | 0x0E => decodeField w
  | 0x10 => .ok (.beq (rd w) (ra w) (BitVec.ofNat 16 (fld w 0 16)))
  | 0x11 => .ok (.bne (rd w) (ra w) (BitVec.ofNat 16 (fld w 0 16)))
  | 0x12 => .ok (.blt (rd w) (ra w) (BitVec.ofNat 16 (fld w 0 16)))
  | 0x13 => .ok (.bge (rd w) (ra w) (BitVec.ofNat 16 (fld w 0 16)))
  | 0x14 => .ok (.bltn (rd w) (ra w) (BitVec.ofNat 16 (fld w 0 16)))
  | 0x15 => .ok (.bgen (rd w) (ra w) (BitVec.ofNat 16 (fld w 0 16)))
  | 0x16 => .ok (.j (BitVec.ofNat 26 (fld w 0 26)))
  | 0x17 => .ok (.jal (BitVec.ofNat 26 (fld w 0 26)))
  | 0x18 => decodeJump w
  | 0x19 => decodeMark w
  | 0x1A => if fld w 16 5 = 0 then .ok (.nest (rd w) (BitVec.ofNat 16 (fld w 0 16))) else .error .reservedField
  | 0x1B => if fld w 16 10 = 0 then .ok (.next (BitVec.ofNat 16 (fld w 0 16))) else .error .reservedField
  | 0x20 => .ok (.ld (rd w) (ra w) (Size.ofNum (fld w 14 2)) (fld w 13 1 == 1) (Scope.ofNum (fld w 10 3)) (BitVec.ofNat 10 (fld w 0 10)))
  | 0x21 => .ok (.ldx (rd w) (ra w) (Size.ofNum (fld w 14 2)) (fld w 13 1 == 1) (Scope.ofNum (fld w 10 3)) (BitVec.ofNat 10 (fld w 0 10)))
  | 0x22 => .ok (.st (rd w) (ra w) (Size.ofNum (fld w 14 2)) (fld w 13 1 == 1) (Scope.ofNum (fld w 10 3)) (BitVec.ofNat 10 (fld w 0 10)))
  | 0x23 => if fld w 14 2 = 3 then .ok (.ldf (rd w) (ra w) (fld w 13 1 == 1) (Scope.ofNum (fld w 10 3)) (BitVec.ofNat 10 (fld w 0 10))) else .error .reservedField
  | 0x24 => if fld w 14 2 = 3 then .ok (.stf (rd w) (ra w) (fld w 13 1 == 1) (Scope.ofNum (fld w 10 3)) (BitVec.ofNat 10 (fld w 0 10))) else .error .reservedField
  | 0x25 => if fld w 14 2 = 3 then .ok (.ldff (rd w) (ra w) (fld w 13 1 == 1) (Scope.ofNum (fld w 10 3)) (BitVec.ofNat 10 (fld w 0 10))) else .error .reservedField
  | 0x26 => decodeAtom w
  | 0x27 => decodeMemc w
  | 0x28 => decodeMsg w
  | 0x29 => decodeBar w
  | 0x2A => if fld w 0 10 = 0 then .ok (.wait (BitVec.ofNat 4 (fld w 22 4)) (BitVec.ofNat 4 (fld w 18 4)) (BitVec.ofNat 4 (fld w 14 4)) (BitVec.ofNat 4 (fld w 10 4))) else .error .reservedField
  | 0x2B => decodeTask w
  | 0x2C => decodeAct w
  | 0x30 => decodeSys w
  | 0x31 => decodeTrap w
  | 0x38 => decodeVecFp w
  | 0x39 => decodeVecInt w
  | 0x3A => decodeVecMem w
  | 0x3B => decodeVecScalar w
  | 0x3C => decodeMatrix w
  | 0x3D => decodeCopy w
  | _ => .error .reservedMajor

/-- The decoder: R115's fates 1 to 3 give an error, fate 5 an instruction. Whether an X instruction
runs on this core (fate 4, R55) depends on the core and is decided when it executes. -/
def decode (w : Word32) : Decoded :=
  match decodeRaw w with
  | .ok i => if i.wf then .ok i else .error .brokenLimit
  | .error e => .error e

/-- Four bytes in memory order are one word, little-endian (R4, R92). -/
def wordOfBytes (b0 b1 b2 b3 : Byte) : Word32 := b3 ++ b2 ++ b1 ++ b0

/-- Decodes the instruction at the head of a byte list; what follows it is given back. -/
def decodeBytes : List Byte → Option (Decoded × List Byte)
  | b0 :: b1 :: b2 :: b3 :: rest => some (decode (wordOfBytes b0 b1 b2 b3), rest)
  | _ => none

/-- The four bytes of a word as memory stores it. -/
def bytesOfWord (w : Word32) : List Byte :=
  [w.extractLsb' 0 8, w.extractLsb' 8 8, w.extractLsb' 16 8, w.extractLsb' 24 8]

/-- The instruction the decoder reads from a word numbered as spec/opcode_table.json numbers it
(bit 0 least significant); every instruction is one 32-bit word, so the number of bits plays no part. -/
def decodeTableWord (_nbits w : Nat) : Option Instr :=
  match decodeBytes (bytesOfWord (BitVec.ofNat 32 w)) with
  | some (.ok i, _) => some i
  | _ => none

/-! ### The encoder -/

/-- The 5-bit number of a register (R95). -/
def Reg.num : Reg → Nat
  | .g n => n.val
  | .zr => 16 | .mq => 17 | .vq => 18 | .cq => 19 | .ib => 20
  | .port .north => 21 | .port .east => 22 | .port .south => 23 | .port .west => 24
  | .ix n => 25 + n.val
  | .wid => 29 | .gt => 30 | .pc => 31

/-- The 2-bit code of a size (R10). -/
def Size.num : Size → Nat
  | .b => 0 | .h => 1 | .w => 2 | .d => 3

/-- The 3-bit code of a scope (R10). -/
def Scope.num : Scope → Nat
  | .th => 0 | .co => 1 | .cl => 2 | .di => 3 | .pk => 4 | .ho => 5 | .pe => 6 | .sy => 7

/-- The 3-bit code of a vector type (R10). -/
def VType.num : VType → Nat
  | .f32 => 0 | .f64 => 1 | .bf16 => 2 | .i32 => 3 | .n32 => 4 | .i64 => 5 | .i16 => 6 | .i8 => 7

/-- The fixed bits of a format plus each operand at its place `(value, lowest bit)`. -/
def pack (fixed : Nat) : List (Nat × Nat) → Nat
  | [] => fixed
  | (v, lo) :: rest => v * 2 ^ lo + pack fixed rest

/-- The word of an instruction (R93 to R113), as a number; `none` for the device's own steps, which
have no word. -/
def encodeNat : Instr → Option Nat
  | .add d a b => some (pack 0x04000000 [(d.num, 21), (a.num, 16), (b.num, 11)])
  | .addw d a b => some (pack 0x04000001 [(d.num, 21), (a.num, 16), (b.num, 11)])
  | .sub d a b => some (pack 0x04000010 [(d.num, 21), (a.num, 16), (b.num, 11)])
  | .subw d a b => some (pack 0x04000011 [(d.num, 21), (a.num, 16), (b.num, 11)])
  | .andR d a b => some (pack 0x04000020 [(d.num, 21), (a.num, 16), (b.num, 11)])
  | .orR d a b => some (pack 0x04000030 [(d.num, 21), (a.num, 16), (b.num, 11)])
  | .xorR d a b => some (pack 0x04000040 [(d.num, 21), (a.num, 16), (b.num, 11)])
  | .andn d a b => some (pack 0x04000050 [(d.num, 21), (a.num, 16), (b.num, 11)])
  | .orn d a b => some (pack 0x04000060 [(d.num, 21), (a.num, 16), (b.num, 11)])
  | .shl d a b => some (pack 0x04000080 [(d.num, 21), (a.num, 16), (b.num, 11)])
  | .shlw d a b => some (pack 0x04000081 [(d.num, 21), (a.num, 16), (b.num, 11)])
  | .shr d a b => some (pack 0x04000090 [(d.num, 21), (a.num, 16), (b.num, 11)])
  | .shrw d a b => some (pack 0x04000091 [(d.num, 21), (a.num, 16), (b.num, 11)])
  | .sha d a b => some (pack 0x040000A0 [(d.num, 21), (a.num, 16), (b.num, 11)])
  | .shaw d a b => some (pack 0x040000A1 [(d.num, 21), (a.num, 16), (b.num, 11)])
  | .rotl d a b => some (pack 0x040000B0 [(d.num, 21), (a.num, 16), (b.num, 11)])
  | .rotlw d a b => some (pack 0x040000B1 [(d.num, 21), (a.num, 16), (b.num, 11)])
  | .shli d a n h => some (pack 0x040000C0 [(d.num, 21), (a.num, 16), (n.toNat, 11), (h.toNat, 1)])
  | .shliw d a n => some (pack 0x040000C1 [(d.num, 21), (a.num, 16), (n.toNat, 11)])
  | .shri d a n h => some (pack 0x040000D0 [(d.num, 21), (a.num, 16), (n.toNat, 11), (h.toNat, 1)])
  | .shriw d a n => some (pack 0x040000D1 [(d.num, 21), (a.num, 16), (n.toNat, 11)])
  | .shai d a n h => some (pack 0x040000E0 [(d.num, 21), (a.num, 16), (n.toNat, 11), (h.toNat, 1)])
  | .shaiw d a n => some (pack 0x040000E1 [(d.num, 21), (a.num, 16), (n.toNat, 11)])
  | .slt d a b => some (pack 0x04000100 [(d.num, 21), (a.num, 16), (b.num, 11)])
  | .sltn d a b => some (pack 0x04000110 [(d.num, 21), (a.num, 16), (b.num, 11)])
  | .seq d a b => some (pack 0x04000120 [(d.num, 21), (a.num, 16), (b.num, 11)])
  | .sne d a b => some (pack 0x04000130 [(d.num, 21), (a.num, 16), (b.num, 11)])
  | .min d a b => some (pack 0x04000140 [(d.num, 21), (a.num, 16), (b.num, 11)])
  | .max d a b => some (pack 0x04000150 [(d.num, 21), (a.num, 16), (b.num, 11)])
  | .minn d a b => some (pack 0x04000160 [(d.num, 21), (a.num, 16), (b.num, 11)])
  | .maxn d a b => some (pack 0x04000170 [(d.num, 21), (a.num, 16), (b.num, 11)])
  | .sel d a b => some (pack 0x04000180 [(d.num, 21), (a.num, 16), (b.num, 11)])
  | .spa d a b => some (pack 0x04000200 [(d.num, 21), (a.num, 16), (b.num, 11)])
  | .spx d a => some (pack 0x04000210 [(d.num, 21), (a.num, 16)])
  | .home d a => some (pack 0x04000220 [(d.num, 21), (a.num, 16)])
  | .mul d a b => some (pack 0x08000000 [(d.num, 21), (a.num, 16), (b.num, 11)])
  | .mulw d a b => some (pack 0x08000001 [(d.num, 21), (a.num, 16), (b.num, 11)])
  | .mulh d a b => some (pack 0x08000010 [(d.num, 21), (a.num, 16), (b.num, 11)])
  | .mulhn d a b => some (pack 0x08000020 [(d.num, 21), (a.num, 16), (b.num, 11)])
  | .div d a b => some (pack 0x08000040 [(d.num, 21), (a.num, 16), (b.num, 11)])
  | .divw d a b => some (pack 0x08000041 [(d.num, 21), (a.num, 16), (b.num, 11)])
  | .divn d a b => some (pack 0x08000050 [(d.num, 21), (a.num, 16), (b.num, 11)])
  | .divnw d a b => some (pack 0x08000051 [(d.num, 21), (a.num, 16), (b.num, 11)])
  | .rem d a b => some (pack 0x08000060 [(d.num, 21), (a.num, 16), (b.num, 11)])
  | .remw d a b => some (pack 0x08000061 [(d.num, 21), (a.num, 16), (b.num, 11)])
  | .remn d a b => some (pack 0x08000070 [(d.num, 21), (a.num, 16), (b.num, 11)])
  | .remnw d a b => some (pack 0x08000071 [(d.num, 21), (a.num, 16), (b.num, 11)])
  | .clz d a => some (pack 0x0C000000 [(d.num, 21), (a.num, 16)])
  | .clzw d a => some (pack 0x0C000001 [(d.num, 21), (a.num, 16)])
  | .ctz d a => some (pack 0x0C000010 [(d.num, 21), (a.num, 16)])
  | .ctzw d a => some (pack 0x0C000011 [(d.num, 21), (a.num, 16)])
  | .pop d a => some (pack 0x0C000020 [(d.num, 21), (a.num, 16)])
  | .popw d a => some (pack 0x0C000021 [(d.num, 21), (a.num, 16)])
  | .brev d a => some (pack 0x0C000030 [(d.num, 21), (a.num, 16)])
  | .brevw d a => some (pack 0x0C000031 [(d.num, 21), (a.num, 16)])
  | .bswap d a => some (pack 0x0C000040 [(d.num, 21), (a.num, 16)])
  | .bswapw d a => some (pack 0x0C000041 [(d.num, 21), (a.num, 16)])
  | .addi d a i => some (pack 0x10000000 [(d.num, 21), (a.num, 16), (i.toNat, 0)])
  | .andi d a i => some (pack 0x14000000 [(d.num, 21), (a.num, 16), (i.toNat, 0)])
  | .ori d a i => some (pack 0x18000000 [(d.num, 21), (a.num, 16), (i.toNat, 0)])
  | .xori d a i => some (pack 0x1C000000 [(d.num, 21), (a.num, 16), (i.toNat, 0)])
  | .slti d a i => some (pack 0x20000000 [(d.num, 21), (a.num, 16), (i.toNat, 0)])
  | .sltni d a i => some (pack 0x24000000 [(d.num, 21), (a.num, 16), (i.toNat, 0)])
  | .li d i => some (pack 0x28000000 [(d.num, 21), (i.toNat, 0)])
  | .lih d i => some (pack 0x2C000000 [(d.num, 21), (i.toNat, 0)])
  | .muli d a i => some (pack 0x30000000 [(d.num, 21), (a.num, 16), (i.toNat, 0)])
  | .addiw d a i => some (pack 0x34000000 [(d.num, 21), (a.num, 16), (i.toNat, 0)])
  | .ext d a p l => some (pack 0x38000000 [(d.num, 21), (a.num, 16), (p.toNat, 8), (l.toNat, 2)])
  | .extx d a p l => some (pack 0x38004000 [(d.num, 21), (a.num, 16), (p.toNat, 8), (l.toNat, 2)])
  | .ins d a p l => some (pack 0x38008000 [(d.num, 21), (a.num, 16), (p.toNat, 8), (l.toNat, 2)])
  | .beq a b i => some (pack 0x40000000 [(a.num, 21), (b.num, 16), (i.toNat, 0)])
  | .bne a b i => some (pack 0x44000000 [(a.num, 21), (b.num, 16), (i.toNat, 0)])
  | .blt a b i => some (pack 0x48000000 [(a.num, 21), (b.num, 16), (i.toNat, 0)])
  | .bge a b i => some (pack 0x4C000000 [(a.num, 21), (b.num, 16), (i.toNat, 0)])
  | .bltn a b i => some (pack 0x50000000 [(a.num, 21), (b.num, 16), (i.toNat, 0)])
  | .bgen a b i => some (pack 0x54000000 [(a.num, 21), (b.num, 16), (i.toNat, 0)])
  | .j i => some (pack 0x58000000 [(i.toNat, 0)])
  | .jal i => some (pack 0x5C000000 [(i.toNat, 0)])
  | .jr a => some (pack 0x60000000 [(a.num, 16)])
  | .jalr d a => some (pack 0x60000080 [(d.num, 21), (a.num, 16)])
  | .align n => some (pack 0x64000000 [(n.toNat, 0)])
  | .bsig e => some (pack 0x64200000 [(e.toNat, 0)])
  | .bsigt e => some (pack 0x64400000 [(e.toNat, 0)])
  | .nest a i => some (pack 0x68000000 [(a.num, 21), (i.toNat, 0)])
  | .next i => some (pack 0x6C000000 [(i.toNat, 0)])
  | .ld t a s o c i => some (pack 0x80000000 [(t.num, 21), (a.num, 16), (s.num, 14), (o.toNat, 13), (c.num, 10), (i.toNat, 0)])
  | .ldx t a s o c i => some (pack 0x84000000 [(t.num, 21), (a.num, 16), (s.num, 14), (o.toNat, 13), (c.num, 10), (i.toNat, 0)])
  | .st t a s o c i => some (pack 0x88000000 [(t.num, 21), (a.num, 16), (s.num, 14), (o.toNat, 13), (c.num, 10), (i.toNat, 0)])
  | .ldf t a o c i => some (pack 0x8C00C000 [(t.num, 21), (a.num, 16), (o.toNat, 13), (c.num, 10), (i.toNat, 0)])
  | .stf t a o c i => some (pack 0x9000C000 [(t.num, 21), (a.num, 16), (o.toNat, 13), (c.num, 10), (i.toNat, 0)])
  | .ldff t a o c i => some (pack 0x9400C000 [(t.num, 21), (a.num, 16), (o.toNat, 13), (c.num, 10), (i.toNat, 0)])
  | .faa t a s o c => some (pack 0x98008000 [(t.num, 21), (a.num, 16), (s.toNat, 14), (o.toNat, 13), (c.num, 10)])
  | .fxch t a s o c => some (pack 0x98008080 [(t.num, 21), (a.num, 16), (s.toNat, 14), (o.toNat, 13), (c.num, 10)])
  | .fcas t a s o c => some (pack 0x98008100 [(t.num, 21), (a.num, 16), (s.toNat, 14), (o.toNat, 13), (c.num, 10)])
  | .fmin t a s o c => some (pack 0x98008180 [(t.num, 21), (a.num, 16), (s.toNat, 14), (o.toNat, 13), (c.num, 10)])
  | .fmax t a s o c => some (pack 0x98008200 [(t.num, 21), (a.num, 16), (s.toNat, 14), (o.toNat, 13), (c.num, 10)])
  | .fand t a s o c => some (pack 0x98008280 [(t.num, 21), (a.num, 16), (s.toNat, 14), (o.toNat, 13), (c.num, 10)])
  | .forA t a s o c => some (pack 0x98008300 [(t.num, 21), (a.num, 16), (s.toNat, 14), (o.toNat, 13), (c.num, 10)])
  | .fxor t a s o c => some (pack 0x98008380 [(t.num, 21), (a.num, 16), (s.toNat, 14), (o.toNat, 13), (c.num, 10)])
  | .watch a => some (pack 0x9C000000 [(a.num, 16)])
  | .unwatch a => some (pack 0x9C000080 [(a.num, 16)])
  | .waita d a => some (pack 0x9C000100 [(d.num, 21), (a.num, 16)])
  | .pref a => some (pack 0x9C000180 [(a.num, 16)])
  | .fence s => some (pack 0x9C000200 [(s.num, 4)])
  | .migr d a => some (pack 0x9C000280 [(d.num, 21), (a.num, 16)])
  | .sete a => some (pack 0x9C000300 [(a.num, 16)])
  | .setf a => some (pack 0x9C000380 [(a.num, 16)])
  | .flush a => some (pack 0x9C000400 [(a.num, 16)])
  | .send a b => some (pack 0xA0000000 [(a.num, 16), (b.num, 11)])
  | .tsend a b => some (pack 0xA0000080 [(a.num, 16), (b.num, 11)])
  | .tdeq d => some (pack 0xA0000100 [(d.num, 21)])
  | .tnull => some (pack 0xA0000180 [])
  | .advt a => some (pack 0xA0000200 [(a.num, 16)])
  | .binit a b => some (pack 0xA4000000 [(a.num, 16), (b.num, 11)])
  | .arv d a o s n => some (pack 0xA4000100 [(d.num, 21), (a.num, 16), (o.toNat, 7), (s.num, 4), (n.toNat, 0)])
  | .arvp a o s n => some (pack 0xA4000200 [(a.num, 16), (o.toNat, 7), (s.num, 4), (n.toNat, 0)])
  | .bwt a b o s => some (pack 0xA4000300 [(a.num, 16), (b.num, 11), (o.toNat, 7), (s.num, 4)])
  | .wait l s c m => some (pack 0xA8000000 [(l.toNat, 22), (s.toNat, 18), (c.toNat, 14), (m.toNat, 10)])
  | .spawn a b f => some (pack 0xAC000000 [(a.num, 16), (b.num, 11), (f.toNat, 4)])
  | .wfw => some (pack 0xAC000080 [])
  | .halt => some (pack 0xAC000100 [])
  | .yield => some (pack 0xAC000180 [])
  | .ctxs a b => some (pack 0xAC000200 [(a.num, 16), (b.num, 11)])
  | .ctxr a => some (pack 0xAC000280 [(a.num, 16)])
  | .prmt a => some (pack 0xAC000300 [(a.num, 16)])
  | .lnch a => some (pack 0xAC000380 [(a.num, 16)])
  | .actb d a => some (pack 0xB0000000 [(d.num, 21), (a.num, 16)])
  | .actj a => some (pack 0xB0000080 [(a.num, 16)])
  | .actd => some (pack 0xB0000100 [])
  | .acte a => some (pack 0xB0000180 [(a.num, 16)])
  | .acta a => some (pack 0xB0000200 [(a.num, 16)])
  | .actst d a => some (pack 0xB0000280 [(d.num, 21), (a.num, 16)])
  | .cpush a b => some (pack 0xB0000300 [(a.num, 16), (b.num, 11)])
  | .cret a => some (pack 0xB0000380 [(a.num, 16)])
  | .mfs d r => some (pack 0xC0000000 [(d.num, 21), (r.toNat, 4)])
  | .mts a r => some (pack 0xC0000001 [(a.num, 16), (r.toNat, 4)])
  | .trap i => some (pack 0xC4000000 [(i.toNat, 0)])
  | .tret => some (pack 0xC4200000 [])
  | .settle a e c => some (pack 0xC4400000 [(a.num, 16), (e.toNat, 4), (c.toNat, 0)])
  | .brk i => some (pack 0xC4600000 [(i.toNat, 0)])
  | .scrub a n => some (pack 0xC4800000 [(a.num, 16), (n.toNat, 0)])
  | .vaddFp d a b m t e => some (pack 0xE0000000 [(d.toNat, 23), (a.toNat, 20), (b.toNat, 17), (m.toNat, 11), (t.num, 2), (e.toNat, 0)])
  | .vsubFp d a b m t e => some (pack 0xE0000020 [(d.toNat, 23), (a.toNat, 20), (b.toNat, 17), (m.toNat, 11), (t.num, 2), (e.toNat, 0)])
  | .vmulFp d a b m t e => some (pack 0xE0000040 [(d.toNat, 23), (a.toNat, 20), (b.toNat, 17), (m.toNat, 11), (t.num, 2), (e.toNat, 0)])
  | .vfma d a b c m t e => some (pack 0xE0000060 [(d.toNat, 23), (a.toNat, 20), (b.toNat, 17), (c.toNat, 14), (m.toNat, 11), (t.num, 2), (e.toNat, 0)])
  | .vfms d a b c m t e => some (pack 0xE0000080 [(d.toNat, 23), (a.toNat, 20), (b.toNat, 17), (c.toNat, 14), (m.toNat, 11), (t.num, 2), (e.toNat, 0)])
  | .vminFp d a b m t e => some (pack 0xE00000A0 [(d.toNat, 23), (a.toNat, 20), (b.toNat, 17), (m.toNat, 11), (t.num, 2), (e.toNat, 0)])
  | .vmaxFp d a b m t e => some (pack 0xE00000C0 [(d.toNat, 23), (a.toNat, 20), (b.toNat, 17), (m.toNat, 11), (t.num, 2), (e.toNat, 0)])
  | .vabsFp d a m t e => some (pack 0xE00000E0 [(d.toNat, 23), (a.toNat, 20), (m.toNat, 11), (t.num, 2), (e.toNat, 0)])
  | .vnegFp d a m t e => some (pack 0xE0000100 [(d.toNat, 23), (a.toNat, 20), (m.toNat, 11), (t.num, 2), (e.toNat, 0)])
  | .vdiv d a b m t e => some (pack 0xE0000120 [(d.toNat, 23), (a.toNat, 20), (b.toNat, 17), (m.toNat, 11), (t.num, 2), (e.toNat, 0)])
  | .vsqrt d a m t e => some (pack 0xE0000140 [(d.toNat, 23), (a.toNat, 20), (m.toNat, 11), (t.num, 2), (e.toNat, 0)])
  | .vrcp d a m t e => some (pack 0xE0000160 [(d.toNat, 23), (a.toNat, 20), (m.toNat, 11), (t.num, 2), (e.toNat, 0)])
  | .vrsq d a m t e => some (pack 0xE0000180 [(d.toNat, 23), (a.toNat, 20), (m.toNat, 11), (t.num, 2), (e.toNat, 0)])
  | .vexp2 d a m t e => some (pack 0xE00001A0 [(d.toNat, 23), (a.toNat, 20), (m.toNat, 11), (t.num, 2), (e.toNat, 0)])
  | .vlog2 d a m t e => some (pack 0xE00001C0 [(d.toNat, 23), (a.toNat, 20), (m.toNat, 11), (t.num, 2), (e.toNat, 0)])
  | .vcvt d a s m t e => some (pack 0xE0000200 [(d.toNat, 23), (a.toNat, 20), (s.num, 14), (m.toNat, 11), (t.num, 2), (e.toNat, 0)])
  | .vcmpFp k a b m r t e => some (pack 0xE0000300 [(k.toNat, 23), (a.toNat, 20), (b.toNat, 17), (m.toNat, 11), (r.toNat, 5), (t.num, 2), (e.toNat, 0)])
  | .vredFp d a m o t e => some (pack 0xE0000400 [(d.toNat, 23), (a.toNat, 20), (m.toNat, 11), (o.toNat, 5), (t.num, 2), (e.toNat, 0)])
  | .vaddInt d a b m t e => some (pack 0xE4000000 [(d.toNat, 23), (a.toNat, 20), (b.toNat, 17), (m.toNat, 11), (t.num, 2), (e.toNat, 0)])
  | .vsubInt d a b m t e => some (pack 0xE4000020 [(d.toNat, 23), (a.toNat, 20), (b.toNat, 17), (m.toNat, 11), (t.num, 2), (e.toNat, 0)])
  | .vmulInt d a b m t e => some (pack 0xE4000040 [(d.toNat, 23), (a.toNat, 20), (b.toNat, 17), (m.toNat, 11), (t.num, 2), (e.toNat, 0)])
  | .vminInt d a b m t e => some (pack 0xE40000A0 [(d.toNat, 23), (a.toNat, 20), (b.toNat, 17), (m.toNat, 11), (t.num, 2), (e.toNat, 0)])
  | .vmaxInt d a b m t e => some (pack 0xE40000C0 [(d.toNat, 23), (a.toNat, 20), (b.toNat, 17), (m.toNat, 11), (t.num, 2), (e.toNat, 0)])
  | .vabsInt d a m t e => some (pack 0xE40000E0 [(d.toNat, 23), (a.toNat, 20), (m.toNat, 11), (t.num, 2), (e.toNat, 0)])
  | .vnegInt d a m t e => some (pack 0xE4000100 [(d.toNat, 23), (a.toNat, 20), (m.toNat, 11), (t.num, 2), (e.toNat, 0)])
  | .vand d a b m t e => some (pack 0xE4000220 [(d.toNat, 23), (a.toNat, 20), (b.toNat, 17), (m.toNat, 11), (t.num, 2), (e.toNat, 0)])
  | .vor d a b m t e => some (pack 0xE4000240 [(d.toNat, 23), (a.toNat, 20), (b.toNat, 17), (m.toNat, 11), (t.num, 2), (e.toNat, 0)])
  | .vxor d a b m t e => some (pack 0xE4000260 [(d.toNat, 23), (a.toNat, 20), (b.toNat, 17), (m.toNat, 11), (t.num, 2), (e.toNat, 0)])
  | .vandn d a b m t e => some (pack 0xE4000280 [(d.toNat, 23), (a.toNat, 20), (b.toNat, 17), (m.toNat, 11), (t.num, 2), (e.toNat, 0)])
  | .vshl d a b m t e => some (pack 0xE40002A0 [(d.toNat, 23), (a.toNat, 20), (b.toNat, 17), (m.toNat, 11), (t.num, 2), (e.toNat, 0)])
  | .vshr d a b m t e => some (pack 0xE40002C0 [(d.toNat, 23), (a.toNat, 20), (b.toNat, 17), (m.toNat, 11), (t.num, 2), (e.toNat, 0)])
  | .vsha d a b m t e => some (pack 0xE40002E0 [(d.toNat, 23), (a.toNat, 20), (b.toNat, 17), (m.toNat, 11), (t.num, 2), (e.toNat, 0)])
  | .vcmpInt k a b m r t e => some (pack 0xE4000300 [(k.toNat, 23), (a.toNat, 20), (b.toNat, 17), (m.toNat, 11), (r.toNat, 5), (t.num, 2), (e.toNat, 0)])
  | .vredInt d a m o t e => some (pack 0xE4000400 [(d.toNat, 23), (a.toNat, 20), (m.toNat, 11), (o.toNat, 5), (t.num, 2), (e.toNat, 0)])
  | .vsel d a b m t e => some (pack 0xE4000500 [(d.toNat, 23), (a.toNat, 20), (b.toNat, 17), (m.toNat, 11), (t.num, 2), (e.toNat, 0)])
  | .vperm d a b m t e => some (pack 0xE4000520 [(d.toNat, 23), (a.toNat, 20), (b.toNat, 17), (m.toNat, 11), (t.num, 2), (e.toNat, 0)])
  | .vslup d a b m t e => some (pack 0xE4000540 [(d.toNat, 23), (a.toNat, 20), (b.toNat, 17), (m.toNat, 11), (t.num, 2), (e.toNat, 0)])
  | .vsldn d a b m t e => some (pack 0xE4000560 [(d.toNat, 23), (a.toNat, 20), (b.toNat, 17), (m.toNat, 11), (t.num, 2), (e.toNat, 0)])
  | .viota d m t e => some (pack 0xE4000580 [(d.toNat, 23), (m.toNat, 11), (t.num, 2), (e.toNat, 0)])
  | .vpopk d m t e => some (pack 0xE40005A0 [(d.toNat, 23), (m.toNat, 11), (t.num, 2), (e.toNat, 0)])
  | .vld d g m t e => some (pack 0xE8000000 [(d.toNat, 23), (g.num, 18), (m.toNat, 11), (t.num, 2), (e.toNat, 0)])
  | .vst d g m t e => some (pack 0xE8000020 [(d.toNat, 23), (g.num, 18), (m.toNat, 11), (t.num, 2), (e.toNat, 0)])
  | .vlds d g s m t e => some (pack 0xE8000040 [(d.toNat, 23), (g.num, 18), (s.toNat, 14), (m.toNat, 11), (t.num, 2), (e.toNat, 0)])
  | .vsts d g s m t e => some (pack 0xE8000060 [(d.toNat, 23), (g.num, 18), (s.toNat, 14), (m.toNat, 11), (t.num, 2), (e.toNat, 0)])
  | .vgath d g i m t e => some (pack 0xE8000080 [(d.toNat, 23), (g.num, 18), (i.toNat, 15), (m.toNat, 11), (t.num, 2), (e.toNat, 0)])
  | .vscat d g i m t e => some (pack 0xE80000A0 [(d.toNat, 23), (g.num, 18), (i.toNat, 15), (m.toNat, 11), (t.num, 2), (e.toNat, 0)])
  | .vldk k g e => some (pack 0xE80000C0 [(k.toNat, 23), (g.num, 18), (e.toNat, 0)])
  | .vstk k g e => some (pack 0xE80000E0 [(k.toNat, 23), (g.num, 18), (e.toNat, 0)])
  | .vbcst d g m t e => some (pack 0xEC000000 [(d.toNat, 23), (g.num, 18), (m.toNat, 11), (t.num, 2), (e.toNat, 0)])
  | .vins d g b t e => some (pack 0xEC000020 [(d.toNat, 23), (g.num, 18), (b.toNat, 14), (t.num, 2), (e.toNat, 0)])
  | .vext d b t e => some (pack 0xEC000040 [(d.toNat, 23), (b.toNat, 14), (t.num, 2), (e.toNat, 0)])
  | .vsetk k g e => some (pack 0xEC000060 [(k.toNat, 23), (g.num, 18), (e.toNat, 0)])
  | .vmovk k s e => some (pack 0xEC000080 [(k.toNat, 23), (s.toNat, 15), (e.toNat, 0)])
  | .mcfg a e => some (pack 0xF0000000 [(a.num, 21), (e.toNat, 14)])
  | .mwl a b e => some (pack 0xF0000400 [(a.num, 21), (b.num, 16), (e.toNat, 14)])
  | .mma a b e => some (pack 0xF0000800 [(a.num, 21), (b.num, 16), (e.toNat, 14)])
  | .macp a b e => some (pack 0xF0000C00 [(a.num, 21), (b.num, 16), (e.toNat, 14)])
  | .mclr a e => some (pack 0xF0001000 [(a.num, 21), (e.toNat, 14)])
  | .mstage a b e => some (pack 0xF0001400 [(a.num, 21), (b.num, 16), (e.toNat, 14)])
  | .mpri e p => some (pack 0xF0001800 [(e.toNat, 14), (p.toNat, 0)])
  | .mcan a e => some (pack 0xF0001C00 [(a.num, 21), (e.toNat, 14)])
  | .csetb a b e n f => some (pack 0xF4000000 [(a.num, 21), (b.num, 16), (e.toNat, 14), (n.toNat, 8), (f.toNat, 4)])
  | .csetd a b e n k => some (pack 0xF4000400 [(a.num, 21), (b.num, 16), (e.toNat, 14), (n.toNat, 8), (k.toNat, 4)])
  | .csetsScale a b e n => some (pack 0xF4000800 [(a.num, 21), (b.num, 16), (e.toNat, 14), (n.toNat, 8)])
  | .csetsMcast a b e n => some (pack 0xF4000810 [(a.num, 21), (b.num, 16), (e.toNat, 14), (n.toNat, 8)])
  | .cgo a b e s t o => some (pack 0xF4000C00 [(a.num, 21), (b.num, 16), (e.toNat, 14), (s.toNat, 8), (t.toNat, 6), (o.toNat, 3)])
  | .cgoc a b e s t o => some (pack 0xF4001000 [(a.num, 21), (b.num, 16), (e.toNat, 14), (s.toNat, 8), (t.toNat, 6), (o.toNat, 3)])
  | .ccan e => some (pack 0xF4001400 [(e.toNat, 14)])
  | .issueTurn _ => none
  | .multiplyDone _ => none
  | .divideDone _ => none
  | .leaveLate _ => none
  | .lateValueReturn _ _ => none
  | .lateValueLand _ => none
  | .retire _ => none
  | .landingDrain _ => none
  | .withdraw _ => none
  | .contextWake _ => none
  | .killWaveFoot _ => none
  | .fetchServe _ => none
  | .fetchFill _ => none
  | .alignRelease _ => none
  | .boundary _ => none
  | .delegationPresent _ => none
  | .lateFaultReport _ => none
  | .preemptSuspend _ => none
  | .containmentKill _ _ => none
  | .gangStopArrive _ => none
  | .gangStop _ => none
  | .gangRelease _ => none
  | .gangCancel _ => none
  | .launchAccept _ => none
  | .taskGenerate _ => none
  | .taskAge _ _ => none
  | .taskBind _ => none
  | .bankPowerUpDone _ => none
  | .bankPowerDown _ => none
  | .stealRequest _ => none
  | .stealAnswer _ => none
  | .stealBackoff _ => none
  | .spawnerRescue _ => none
  | .threadDepart _ => none
  | .migrationArrival _ => none
  | .migrationResend _ => none
  | .arrivalMove _ => none
  | .launchSweep _ => none
  | .homeLoad _ => none
  | .homeWriteBack _ => none
  | .homeLdf _ => none
  | .homeLdff _ => none
  | .homeStf _ => none
  | .homeSete _ => none
  | .homeSetf _ => none
  | .homeAtomReserve _ => none
  | .homeAtomRelease _ => none
  | .homeWatch _ => none
  | .homeUnwatch _ => none
  | .homeWaitaRead _ => none
  | .homeFlush _ => none
  | .homeBinit _ => none
  | .homeArv _ => none
  | .homeBwt _ => none
  | .orphanMessage _ => none
  | .requestRefused _ => none
  | .requestResend _ => none
  | .wcbSend _ => none
  | .watchWake _ => none
  | .polledWatch _ => none
  | .invalidation _ => none
  | .replicaDrop _ _ => none
  | .dropNotice _ => none
  | .parityUpdate _ _ => none
  | .scrubPass _ => none
  | .scrubRequestBlock _ => none
  | .messageAccept _ => none
  | .messageResend _ => none
  | .inboxRefill _ => none
  | .portWordArrive _ => none
  | .timedMessageArrive _ => none
  | .announcement _ _ => none
  | .announcementReceive _ => none
  | .zeroLookaheadRound _ => none
  | .endOfTime _ => none
  | .energyRefill _ => none
  | .energyInterval _ => none
  | .vectorComplete _ _ => none
  | .vectorFault _ _ => none
  | .copyPieceDone _ _ _ => none
  | .copyComplete _ _ => none
  | .copyFault _ _ => none
  | .stagedEnter _ => none
  | .matrixStart _ => none
  | .planeLoadDone _ => none
  | .kstepDone _ => none
  | .matrixComplete _ => none
  | .matrixFault _ => none
  | .currentLimiterSample _ _ => none
  | .stampDraw _ => none
  | .cpushDurable _ => none
  | .unwindChoose _ => none
  | .routineBind _ => none
  | .sepiactlRetry _ _ => none
  | .sepiactlSkip _ _ => none
  | .sepiactlFail _ _ => none
  | .slateRetireBank _ _ => none
  | .slateFailParity _ _ => none
  | .slateClearCounts _ => none
  | .slatestWrite _ _ => none
  | .inboxRingSet _ _ _ => none
  | .fpmodeWrite _ _ => none
  | .fpflagsAccess _ _ => none
  | .mxCounterClear _ _ => none
  | .profClear _ _ => none
  | .trcctlWrite _ _ => none
  | .windowInvalidate _ _ _ => none
  | .windowOverflowPop _ => none
  | .windowOverflowRelease _ _ => none
  | .launchwWrite _ _ => none
  | .bootImageStaged _ => none
  | .unitReady _ => none
  | .fwfaultRead _ => none
  | .hmdataWrite _ _ => none
  | .hostMessageSend _ => none
  | .hmdropRead _ => none
  | .hbadwRead _ => none
  | .hostPostedWrite _ _ _ _ => none
  | .cxlMemWrite _ _ _ _ => none
  | .hostRead _ _ _ => none
  | .hostRegisterWrite _ _ _ => none
  | .dbgselWrite _ _ => none
  | .debugStop _ => none
  | .debugResume _ => none
  | .debugStep _ _ => none
  | .dbgdataAccess _ _ => none
  | .firmwareFault _ => none
  | .traceRecordWrite _ => none
  | .traceFault _ => none
  | .boundaryFailure _ => none
  | .flitReceive _ _ _ => none
  | .keyRollover _ => none
  | .peerPortDown _ => none
  | .correctionBeat _ => none
  | .frequencyChange _ _ => none
  | .frequencyResume _ => none
  | .thermalStep _ _ => none
  | .thermalTrip _ => none
  | .powerStepDown _ => none
  | .powerUp => none
  | .acknowledgementArrival _ _ => none
  | .backInvalidationAck _ => none
  | .spawnPushArrival _ => none
  | .stolenTasksArrival _ => none
  | .instructionCacheFill _ _ => none
  | .retentionRelease _ => none
  | .firmwareStagingWrite _ _ _ => none
  | .attestationRequest _ _ => none
  | .peerCopyPieceArrival _ _ _ => none

/-- The word of an instruction; `none` for the device's own steps. -/
def encode (i : Instr) : Option Word32 := (encodeNat i).map (BitVec.ofNat 32)

/-- A step of the device that is no instruction word. -/
def Instr.isEvent (i : Instr) : Bool := (encodeNat i).isNone

end Sys2Proof
end

