-- ==== Sys2Proof/Machine/Tab.lean ====
section
/-! DEFINITION. Sparse tables: the plain data that holds everything the package has many of (contexts,
cores, dies, registers). A key that is not listed reads as the table's default, so the state after
reset lists nothing. Keys stand in rising order. -/

namespace Sys2Proof

/-- A sparse table from numbers to values. -/
abbrev Tab (α : Type) := List (Nat × α)

/-- The value at a key, or the default. -/
def Tab.get {α : Type} (t : Tab α) (k : Nat) (d : α) : α :=
  match t with
  | [] => d
  | (k', v) :: rest => if k' = k then v else Tab.get rest k d

/-- The value at a key, if the table lists it. -/
def Tab.find {α : Type} (t : Tab α) (k : Nat) : Option α :=
  match t with
  | [] => none
  | (k', v) :: rest => if k' = k then some v else Tab.find rest k

/-- Writes the value at a key, keeping keys in rising order. -/
def Tab.set {α : Type} (t : Tab α) (k : Nat) (v : α) : Tab α :=
  match t with
  | [] => [(k, v)]
  | (k', v') :: rest =>
    if k' = k then (k, v) :: rest
    else if k < k' then (k, v) :: (k', v') :: rest
    else (k', v') :: Tab.set rest k v

/-- Removes a key. -/
def Tab.del {α : Type} (t : Tab α) (k : Nat) : Tab α := t.filter (fun e => e.1 != k)

/-- Changes every listed value. -/
def Tab.mapVal {α : Type} (t : Tab α) (f : α → α) : Tab α := List.map (fun (e : Nat × α) => (e.1, f e.2)) t

end Sys2Proof
end

