-- ==== Sys2Proof/Machine/State.lean ====
section
/-! DEFINITION. The state of the package as plain data: threads and contexts, cores with their sidings
and home tables, dies, partitions, hubs, links, messages in flight, and memory. A context id (cid) is
core number × 16 + context; a memory key names one byte of scratchpad or of physical global memory. -/

namespace Sys2Proof.Machine

open Sys2Proof

/-! ### Reasons a step can stop -/

/-- The machine stops with a fault. -/
inductive Fault where
  /-- Raised by step when the head of the agenda is an instruction word and not a step of the device:
  no such schedule exists. Safe: the machine stops where the hardware has no such step. -/
  | notAStep
  deriving DecidableEq, Repr

/-- An instruction without a meaning. -/
inductive Refusal where
  /-- Raised by an arm of exec whose instruction has no meaning yet. Safe: the machine stops. -/
  | notModelled (mnemonic : String)
  deriving DecidableEq, Repr

/-- The outcome of one step. -/
abbrev Out (σ : Type) := Host.Outcome σ Fault Refusal

/-! ### Causes -/

/-- The cause codes of R214. -/
inductive Cause where
  | illegal | extAbsent | privilege | misaligned | badAddress | badPort | break_ | trap | signature
  | reconstruct | lookahead | sepiaFull | barrierOverrun | orphaned | pageFault | accessFault
  | engineFault | actAbandoned | zeroLookahead | matrixThreshold | compFailed | dirOverflow
  | stackGrowth | contained | traceHalted
  deriving DecidableEq, Repr

/-- CAUSE.CLASS (R216). -/
inductive Class where
  | precise | reply | late | async
  deriving DecidableEq, Repr

/-! ### Work that a thread has handed over -/

/-- Functions of ATOM (R103). -/
inductive AtomFn where
  | add | xchg | cas | min | max | and | or | xor
  deriving DecidableEq, Repr

/-- What a request asks of its home (R184, R188, R191, R196, R198, R209 to R211). -/
inductive ReqOp where
  | load (bytes : Nat) (sx : Bool)
  | prefetch
  | store (bytes : List (Nat × Byte)) (count : Nat)
  | ldf | ldff
  /-- the LDF of a claim of the iteration fetcher (R52) -/
  | claim
  | stf (v : Word)
  | sete | setf
  | reserve (fn : AtomFn) (wide high : Bool) (opnd cmp : Word)
  | release (v : Word)
  | watch | unwatch
  | waita
  | flush
  | binit (b : Word)
  | arv (n die : Nat) (posted : Bool)
  | bwt (phase : BitVec 4)
  /-- a posted message waiting for its acceptance (R200, R203) -/
  | msg
  /-- a host's write of the launch word of its function (R249, R379) -/
  | launch (v : Word)
  deriving DecidableEq, Repr

/-- A request of one packet to a home: who asks, for which destination register, at which address
(as issued) and memory key, and what. `tries` counts refusals (R186); `tid` is the thread that asks, to which a
reservation belongs wherever the thread is (R242). -/
structure Req where
  cid : Nat
  tid : Nat
  seq : BitVec 8
  reg : Option (Fin 16)
  addr : Word
  key : Nat
  op : ReqOp
  tries : Nat
  deriving DecidableEq, Repr

/-- A vector command in the siding: the instruction, the values of its slots, the rounding mode at
performance (R266) and the first element still to do (R299). -/
structure VCmd where
  cid : Nat
  seq : BitVec 8
  i : Instr
  a : Word
  b : Word
  rm : BitVec 2
  start : Nat
  deriving DecidableEq, Repr

/-- A copy descriptor (R302); SROW 0 with `derived` set is taken at the CGO. -/
structure Desc where
  base : Word
  dev : BitVec 17
  fmt : Nat
  size : Tab Nat
  stride : Tab Word
  sbase : Option Word
  srow : Word
  mcast : Option (BitVec 12 × BitVec 12)
  deriving DecidableEq, Repr

/-- A matrix command after its captures at stage 8 (R319 to R322): command code, operands, format and
scale bits, planes `(tile, scales)`, priority, and the counts of its record. `ord` is its place in the order of
performance and staging, `age` the core's cycle at its entry into its queue (R324). -/
structure MCmd where
  cid : Nat
  seq : BitVec 8
  ord : Nat
  code : Nat
  a : Word
  b : Word
  fmt : Nat
  sa : Bool
  sw : Bool
  planes : List (Word × Word)
  prio : Nat
  age : Nat
  k : Nat
  sat : Nat
  nan : Nat
  bso : Nat
  status : Nat
  deriving DecidableEq, Repr

/-- A destination word that a copy holds reserved (R309): the first element of its piece, the word, its home, the request and the
value reserved, and whether its release waits at the home. -/
structure Grant where
  piece : Nat
  word : Word
  home : Nat
  req : Req
  value : Word
  sent : Bool
  deriving DecidableEq, Repr

/-- A copy that starts no further piece and ends once those in flight have finished: cancelled (R312), or stopped by a fault of the FC
code at an address, at its flag store or not (R308, R313). -/
inductive Closing where
  | cancelled
  | faulted (fc : Nat) (addr : Word) (flag : Bool)
  deriving DecidableEq, Repr

/-- A copy command and its progress (R306, R308): the first element of the first piece not yet performed, and the first elements of the
later pieces already performed. `status` is 0 while it runs; a CGOC whose record has been delivered stays with status 3 until its staged
command may enter its queue (R322). Of the pieces under way it keeps what is done of each, by its first element: the cores written
(R310), the words accumulated and those reserved (R309), and the port and sequence of the flit that carries it to a peer (R382);
`closing` says that it is to end. `scales` are the scales chosen for its destination blocks (R264), and `id` the model's own number of
the command. -/
structure CopyCmd where
  cid : Nat
  seq : BitVec 8
  src : Desc
  dst : Desc
  op : Nat
  flag : Word
  fval : Word
  staged : Option MCmd
  first : Nat
  done : List Nat
  sat : Nat
  status : Nat
  flagOnly : Bool
  asn : Nat
  id : Nat
  scales : Tab Int
  branches : List (Nat × Nat)
  words : List (Nat × Word)
  grants : List Grant
  flits : List (Nat × Nat × BitVec 12)
  closing : Option Closing
  deriving DecidableEq, Repr

/-- What a scoreboard entry replays (R172). -/
inductive Replay where
  | none
  | req (r : Req)
  | vec (c : VCmd)
  | copy (c : CopyCmd)
  | mat (c : MCmd)
  deriving DecidableEq, Repr

/-- A faulted operation: the fields of a scoreboard entry (R218), the full address that DETAIL shows
(R221) and what a replay sends. -/
structure Faulted where
  kind : Nat
  fc : Nat
  reg : Option (Fin 16)
  seq : BitVec 8
  addr : Word
  op : Replay
  deriving DecidableEq, Repr

/-- One scoreboard entry in use (R218). -/
structure Score where
  f : Faulted
  settled : Bool
  deriving DecidableEq, Repr

/-- A record of a completion lane or a message of ib (R202): header and payload. -/
structure Rec where
  hdr : Word
  data : Word
  deriving DecidableEq, Repr

/-- A claim that a NEST or NEXT has sent (R52): the instruction's address and the sequence of its packet, the counter with N, P
and MINC, and the outcome once it is back; the instruction uses it when it executes again (R79, R83). -/
structure Claim where
  pc : Addr48
  seq : BitVec 8
  ctr : Word
  n : Nat
  p : Nat
  minc : Nat
  out : Option (Option (Nat × Nat))
  deriving DecidableEq, Repr

/-- The iteration fetcher (R52, R145): descriptor fields, iteration i and chunk end, and the claims that no packet has used
yet. -/
structure Nest where
  active : Bool
  ctr : Word
  n : Nat
  e0 : Nat
  e1 : Nat
  e2 : Nat
  e3 : Nat
  p : Nat
  minc : Nat
  i : Nat
  stop : Nat
  claims : List Claim
  deriving DecidableEq, Repr

/-- The checker state of a context (R88, R90). -/
structure Sig where
  en : Bool
  isOpen : Bool
  crc : BitVec 16
  n : Nat
  e0 : BitVec 16
  e1 : BitVec 16
  last : Tab Nat
  deriving DecidableEq, Repr

/-- The matrix configuration of a context (R314). -/
structure MatCfg where
  fmt : Nat
  sa : Bool
  sw : Bool
  prio : Nat
  planes : List (Nat × Bool × Word × Word)
  slot : Option MCmd
  live : Bool
  deriving DecidableEq, Repr

/-! ### Threads -/

/-- A push that a thread keeps as pending (R339): the address of its CPUSH, and the die, slot and stamp of its record; stamp 0
while its draw is under way. -/
structure Push where
  pc : Addr48
  die : Nat
  slot : Nat
  stamp : Word
  deriving DecidableEq, Repr

/-- What travels with a thread or is saved with it (R54, R226, R227): registers, system registers,
lanes, fetcher, scoreboard, engine state, reservations, pending pushes. `tid` is the model's own name of the thread (log 66), and `saved`
says that its engine state lies in its save area (R46, R54). -/
structure Thread where
  tid : Nat
  saved : Bool
  pc : Addr48
  gpr : Tab Word
  ix : Tab Word
  wid : Word
  vreg : Tab Word32
  kreg : Tab Word
  vlive : Bool
  descs : Tab Desc
  mat : MatCfg
  comp : Bool
  inTrap : Bool
  launch : Nat
  prio : Nat
  slot : Option Nat
  fpflags : BitVec 5
  fpmode : BitVec 2
  feretry : BitVec 16
  ebudget : BitVec 32
  actcur : Word
  tnext : Word
  mxsat : BitVec 32
  mxnan : BitVec 32
  mxbso : BitVec 32
  mxthr : BitVec 48
  sig : Sig
  tvec : BitVec 46
  epc : BitVec 46
  cause : Word
  detail : Word
  score : Tab Score
  migmask : BitVec 16
  msghdr : Word
  nest : Nest
  resv : List Nat
  pushes : List Push
  cq : List Rec
  mq : List Rec
  vq : List Rec
  routine : Option (Nat × Nat)
  deriving DecidableEq, Repr

/-- A thread with every field zero, unset or empty. -/
def Thread.zero : Thread where
  tid := 0
  saved := false
  pc := 0
  gpr := []
  ix := []
  wid := 0
  vreg := []
  kreg := []
  vlive := false
  descs := []
  mat := ⟨0, false, false, 0, [], none, false⟩
  comp := false
  inTrap := false
  launch := 0
  prio := 0
  slot := none
  fpflags := 0
  fpmode := 0
  feretry := 0
  ebudget := 0
  actcur := 0
  tnext := 0
  mxsat := 0
  mxnan := 0
  mxbso := 0
  mxthr := 0
  sig := ⟨false, false, 0xFFFF, 0, 0, 0, []⟩
  tvec := 0
  epc := 0
  cause := 0
  detail := 0
  score := []
  migmask := 0
  msghdr := 0
  nest := ⟨false, 0, 0, 0, 0, 0, 0, 0, 0, 0, 0, []⟩
  resv := []
  pushes := []
  cq := []
  mq := []
  vq := []
  routine := none

/-! ### Contexts -/

/-- What a waiting or parked context waits for (R34, R79). -/
inductive Wait where
  /-- the late value of a general register (R74) -/
  | operand (r : Fin 16)
  /-- the messages, words and free place that an instruction's lanes and ports need (R121) -/
  | lanes (a b d : Option Reg)
  /-- a refill that leaves BUDGET at or above the cost (R282) -/
  | energy (cost : Nat)
  /-- the packet in the stage 6 bay waits for its reply (R75, R406) -/
  | reply
  /-- a store performed on a watched word (R186, R192, R193) -/
  | watch
  /-- counts: OUTLD, OUTST, OUTCP, OUTMX at or below these; 15 is no limit (R212) -/
  | counts (l s c m : Nat)
  /-- UNACK below its limit, or OUTLD below its limit (R177) -/
  | posted
  | late
  /-- the value of an acquire that left late (R182, R189) -/
  | ordered
  /-- every write-back that the core has begun, and the counts of R195 -/
  | fence
  /-- everything HALT waits for: counts zero and no unsettled scoreboard entry (R150, R151) -/
  | drained
  /-- a free place in the vector queue, the copy siding or a matrix queue, or in a lane (R281, R306, R324) -/
  | vspace
  | cspace
  | mspace (prio : Nat)
  | vrecord
  /-- every older vector command of the context complete (R266, R267) -/
  | vdone
  /-- the multiplier can start, or with `div` the divider's queue has room (R136, R137) -/
  | siding (div : Bool)
  /-- the value of an accepted divide toward a port (R137) -/
  | divided
  /-- a CPUSH record to have its stamp drawn and to become durable (R336, R339) -/
  | durable
  /-- an activity's state change (R162) -/
  | activity (h : Word)
  /-- TDEQ's condition (R204) -/
  | time
  /-- the spawn limit of a die (R49) -/
  | spawn (die : Nat)
  /-- a free place among the partition's submitted blocks (R156) -/
  | submit
  /-- the acceptance of a refused message, by the sequence and the address of its SEND or TSEND (R201) -/
  | accepted (q : BitVec 8) (x : Word)
  /-- the release of an ATOM of the context, or a refused request of it, to the same home (R186, R189, R235) -/
  | order (home : Nat)
  /-- the return of a delegation (R220), or the restart of context 0 after a firmware fault (R222) -/
  | delegation
  /-- an ALIGN's release (R86) -/
  | align (n : Nat)
  /-- the drains before a travel (R54), and the travel: target core, mask, the whole context (R55), and
  whether the thread goes on after the instruction (MIGR) or at it -/
  | depart (core : Nat) (mask : BitVec 16) (whole after : Bool)
  /-- the WFW or HALT sleep of context 0 (R150) -/
  | sleep
  /-- the ring of the core's inbox to become empty (R244) -/
  | ring
  /-- the trace records already queued to be written (R396) -/
  | trace
  /-- a firmware fault's restart of context 0 (R222, R380) -/
  | restart (code : Nat)
  /-- the zero OUTLD and UNACK, and the room, of a suspension (R226) -/
  | suspend
  /-- the certification of every older packet of the context (R83, R91) -/
  | older
  /-- the page of a growing stack, which context 0 of the home core is to map (R175) -/
  | page (x : Word)
  /-- the block of the next word, which the cluster's instruction cache misses (R85) -/
  | fetch
  deriving DecidableEq, Repr

/-- The states of R34. -/
inductive Run where
  | vacant | idle | runnable
  | waiting (w : Wait)
  | parked (w : Wait)
  | suspended | travelling | killed
  deriving DecidableEq, Repr

/-- A source slot of a packet in the pipe (R67). -/
inductive Slot where
  | none
  | empty (reg : Reg) (q : BitVec 8)
  | fetched (reg : Reg) (v : Word) (q : Option (BitVec 8))
  | garnered (reg : Reg) (v : Word) (q : BitVec 8)
  /-- a lane or port, filled only at stage 8 (R70) -/
  | later (reg : Reg)
  deriving DecidableEq, Repr

/-- DST state of a packet (R67). -/
inductive Dst where
  | none | pending | done | late
  deriving DecidableEq, Repr

/-- An instruction packet (R67): DST is `dreg`, `value` and `dst`, FAULT is `cause`, FLAGS and COUNTS are `flags` and
`counts` (an increment and a sum for each profiling accumulator). -/
structure Packet where
  seq : BitVec 8
  pc : Addr48
  op : Word32
  a : Slot
  b : Slot
  c : Slot
  dreg : Option Reg
  value : Word
  dst : Dst
  cause : Option Cause
  flags : BitVec 5
  counts : Tab (Nat × Nat)
  endb : Bool
  deriving DecidableEq, Repr

/-- What a landing entry holds (R76, R176). -/
inductive Landed where
  | reserved
  | ordinary (v : Word)
  | late
  deriving DecidableEq, Repr

/-- A landing entry (R77, R176). -/
structure Landing where
  seq : BitVec 8
  reg : Fin 16
  val : Landed
  certified : Bool
  deriving DecidableEq, Repr

/-- A kill wave on its way to the foot (R80). -/
structure Wave where
  s : BitVec 8
  redirect : Addr48
  deriving DecidableEq, Repr

/-- One of the four neighbour port FIFOs and the places held in it for results (R121, R206). -/
structure Port where
  words : List Word
  held : Nat
  deriving DecidableEq, Repr

/-- A hardware context: its state, the thread in it, the part of the pipe that belongs to it, its ports, and what is pending for it.
`owed` holds the profiling counts of the packet at stage 6 (R84), `parkDue` a park that R186 asks for at the next boundary, `parkedAt`
the core's cycle in which a held ALIGN or a TDEQ began to wait, and `carried` the precise cause, with its DETAIL, that the packet has
met at stage 6 (FAULT of R67). `posted` holds the operations that UNACK counts (R177) and `lates` the sequences of the late requests
that OUTLD counts; `traps` is the model's own count of the precise causes raised (× 64, and the last one's code), by which the step sees
that an instruction raised one. -/
structure Ctx where
  run : Run
  th : Thread
  seq : BitVec 8
  fetchPc : Addr48
  landing : List Landing
  awaited : Tab (BitVec 8)
  injected : List Packet
  retiring : List Packet
  waves : List Wave
  bay : Option (Instr × Req)
  owed : Tab (Nat × Nat)
  fbuf : List Nat
  fwant : Option Nat
  yielded : Bool
  reserved : Option Thread
  ports : Tab Port
  ready : Bool
  watching : Tab Bool
  polled : Tab Word
  posted : List Req
  lates : List (BitVec 8)
  faults : List Faulted
  replies : List (Cause × Word)
  asyncs : Tab Word
  preempt : Bool
  barred : Option (BitVec 8)
  parkedAt : Nat
  answered : Bool
  parkDue : Option Wait
  carried : Option (Cause × Word)
  traps : Nat
  deriving DecidableEq, Repr

/-- A vacant context. -/
def Ctx.zero : Ctx where
  run := .vacant
  th := Thread.zero
  seq := 0
  fetchPc := 0
  landing := []
  awaited := []
  injected := []
  retiring := []
  waves := []
  bay := none
  owed := []
  fbuf := []
  fwant := none
  yielded := false
  reserved := none
  ports := []
  ready := false
  watching := []
  polled := []
  posted := []
  lates := []
  faults := []
  replies := []
  asyncs := []
  preempt := false
  barred := none
  parkedAt := 0
  answered := false
  parkDue := none
  carried := none
  traps := 0

/-! ### Tasks and launches -/

/-- A queued task (R40, R42, R43): target die, pins as canonical places, whether it may be stolen, its
enqueue order, the full 4,096-cycle periods it has been queued, and the cycles of the current period. -/
structure Task where
  launch : Nat
  entry : Addr48
  args : List Word
  wid : Word
  prio : Nat
  cluster : Option Nat
  core : Option Nat
  ctx : Option Nat
  anyDie : Bool
  born : Nat
  age : Nat
  spent : Nat
  deriving DecidableEq, Repr

/-- A range of a placement table (R232). -/
structure Range where
  base : Nat
  size : Nat
  gran : Nat
  dies : BitVec 8
  stk : Bool
  toa : Bool
  deriving DecidableEq, Repr

/-- How an agent that is no thread sees memory: a partition, an address space of it, and a placement table (R156, R404). -/
structure View where
  part : Nat
  space : Nat
  ranges : List Range
  deriving DecidableEq, Repr

/-- A launch block as read by LNCH, with the address space and placement table it was read in (R36, R156). -/
structure Block where
  addr : Word
  view : View
  bytes : List Byte
  deriving DecidableEq, Repr

/-- A launch that has ended and whose completion record waits for its energy: its STATUS, TEND and MSGS, and the dies whose interval of
the end is not yet charged (R60, R403). -/
structure Final where
  status : Nat
  tend : Word
  msgs : Nat
  dies : List Nat
  deriving DecidableEq, Repr

/-- An accepted launch (R36 to R42, R60). `num` is its key: its number, with its partition above bit 32 (a number is
unique within a partition only, R38); `succ` likewise, 0 for none. -/
structure Launch where
  num : Nat
  part : Nat
  asn : Nat
  flags : BitVec 5
  prio : Nat
  dies : BitVec 8
  entry : Addr48
  args : List Word
  widths : List Nat
  extents : List Nat
  levels : List Nat
  ranges : List Range
  ebudget : Nat
  erefill : Nat
  succ : Nat
  feretry : BitVec 16
  tmask : BitVec 16
  stkbase : Word
  stksize : Nat
  domain : Nat
  splim : Nat
  block : Word
  blockView : View
  gen : Nat
  ended : Bool
  tasks : Nat
  kills : Nat
  killed : Bool
  tstart : Word
  energy : Nat
  sent : Nat
  recv : Nat
  lastSent : Nat
  lastRecv : Nat
  final : Option Final
  deriving DecidableEq, Repr

/-! ### Cores -/

/-- What becomes of a divide's value (R137 to R139): emitted already, since it is ready within four cycles; a late value; for a
divide toward a port the instruction and the port; or nothing, since a kill wave has deleted its packet. -/
inductive DivUse where
  | written
  | late
  | push (i : Instr) (d : Dir)
  | dropped
  deriving DecidableEq, Repr

/-- A divide in the divider or in its queue (R137, R138): its quotient or remainder, the core's cycle in which that is ready, and
what becomes of it. -/
structure DivOp where
  cid : Nat
  tid : Nat
  seq : BitVec 8
  reg : Option (Fin 16)
  value : Word
  due : Nat
  use : DivUse
  deriving DecidableEq, Repr

/-- A value on its way from stage 11 to the foot (R75, R76). -/
structure LateVal where
  cid : Nat
  seq : BitVec 8
  reg : Option (Fin 16)
  value : Word
  deriving DecidableEq, Repr

/-- A request queued in a home's wait table (R184, R211, R241), and the memory key of its word. -/
structure Waiter where
  req : Req
  key : Nat
  deriving DecidableEq, Repr

/-- A reserved global word or an empty scratchpad word (R184, R241): the thread that holds it (none for a scratchpad word that
SETE emptied), and `atom` while an ATOM holds it, whose reservation is never orphaned (R187). -/
structure Held where
  atom : Bool
  holder : Option Nat
  deriving DecidableEq, Repr

/-- A home line of a slice with its directory entry (R246, R247): the sharer codes, the overflow bit, and whether a copy's write
held by it has been recorded; the valid and dirty bits of the four 64-byte sectors, and the words written in a sector that is
not valid. -/
structure DirLine where
  sharers : List Nat
  ovf : Bool
  told : Bool
  valid : BitVec 4
  dirty : BitVec 4
  masks : Tab (BitVec 16)
  deriving DecidableEq, Repr

/-- A replica in a slice (R246): the L1 copies that it has supplied, and its 256 bytes. -/
structure Replica where
  sharers : List Nat
  bytes : List Byte
  deriving DecidableEq, Repr

/-- A 32-byte line of an L1, by virtual key, with the bytes that the copy holds (R23, R238). -/
structure L1Line where
  key : Nat
  bytes : List Byte
  deriving DecidableEq, Repr

/-- A write-combining entry (R237): a 32-byte line of one context and the bytes stored to it. -/
structure Wcb where
  cid : Nat
  home : Nat
  line : Nat
  bytes : List (Nat × Byte)
  count : Nat
  req : Req
  deriving DecidableEq, Repr

/-- An ATOM of a context between its reserve and its release (R188, R189): its home, the release once the reserve has been
granted, and what its release half waits for: earlier posted operations, late requests and vector stores, and the
write-backs of the core when its scope is wide. -/
structure AtomOp where
  cid : Nat
  tid : Nat
  seq : BitVec 8
  home : Nat
  release : Option (Req × Bool)
  posts : List Req
  lates : List (BitVec 8)
  stores : List (BitVec 8)
  writes : Bool
  deriving DecidableEq, Repr

/-- A refused request, or one of its thread behind it, to be resent when its backoff expires (R186): its home, the delay, whether
its context is parked for it, and whether the refusal has reached the core. -/
structure Resend where
  dst : Nat
  delay : Nat
  parked : Bool
  told : Bool
  deriving DecidableEq, Repr

/-- A refused SEND or TSEND kept for resending (R201), or a later one of its sender to the same core that must
not pass it: the posted operation, the destination core and context, the launch, the message, its stamp and
order number when timed, and the cycles until it is resent. -/
structure MsgResend where
  r : Req
  dst : Nat
  ctx : Nat
  launch : Nat
  msg : Rec
  timed : Option (Word × Nat)
  delay : Nat
  deriving DecidableEq, Repr

/-- A message in the ib store (R244). -/
structure Ib where
  ctx : Nat
  msg : Rec
  deriving DecidableEq, Repr

/-- An entry of the timed lane (R361). -/
structure Timed where
  stamp : Word
  src : Nat
  ord : Nat
  msg : Rec
  deriving DecidableEq, Repr

/-- An input link: source core, lookahead and the value last announced (R357, R362). -/
structure InLink where
  src : Nat
  l : Nat
  ann : Word
  deriving DecidableEq, Repr

/-- An output link: destination, lookahead, value last announced, and the reasons to announce (R365, R371). -/
structure OutLink where
  dst : Nat
  l : Nat
  a : Word
  blockedSince : Bool
  tnull : Bool
  lastCyc : Option Nat
  deriving DecidableEq, Repr

/-- Local time of a listed core (R359 to R368). -/
structure LTime where
  launch : Nat
  vt : Word
  ins : List InLink
  outs : List OutLink
  lane : List Timed
  waiters : List Nat
  rounds : Nat
  roundAt : Nat
  lastB : Word
  lastP : Word
  wasBlocked : Bool
  timeEnded : Bool
  sends : Nat
  deriving DecidableEq, Repr

/-- A thread held in a core's context cache or a spill area (R53, R227): suspended by PRMT, rescued
spawner, arrival, or a refused migration to be resent. -/
inductive Held3 where
  | suspended | rescued | arrival
  | resend (dst : Nat) (delay : Nat)
  deriving DecidableEq, Repr

/-- A held thread with the counts and records that stay with it. -/
structure Parked where
  th : Thread
  why : Held3
  origin : Nat
  seq : BitVec 8
  asyncs : Tab Word
  faults : List Faulted
  replies : List (Cause × Word)
  deriving DecidableEq, Repr

/-- A thread in a die's spill area: the core that it belongs to, the 256 words of its record (R227), and what the record has no
place for (log 89). -/
structure Spill where
  core : Nat
  record : List Word
  rest : Parked
  deriving DecidableEq, Repr

/-- An entry of the delegation queue (R220): the delegating context (none for a supervisor cause). -/
structure Deleg where
  src : Option Nat
  cause : Cause
  cls : Class
  nent : Nat
  detail : Word
  deriving DecidableEq, Repr

/-- States of a slate group (R254). -/
inductive Slate where
  | normal | degraded | unprotected | lost
  deriving DecidableEq, Repr

/-- A slate group: state, retired bank within the group, queued parity updates (row, old XOR new of the data, and of the
full-empty bit) (R253), and the rows of the parity bank whose word holds an uncorrectable or a correctable error (R251). -/
structure Group where
  st : Slate
  rbank : Nat
  queue : List (Nat × Word × Bool)
  draining : Bool
  badRows : List Nat
  softRows : List Nat
  deriving DecidableEq, Repr

/-- A queued trace record (R397). -/
structure TraceRec where
  kind : Nat
  ctx : Nat
  seq : BitVec 8
  pc : Addr48
  gap : Bool
  cyc : Nat
  a : Word
  b : Word
  deriving DecidableEq, Repr

/-- What has become of a trace record that has been sent: on its way to its home, performed, or without a translation there (R398,
R399). -/
inductive TraceSt where
  | sent | performed | failed
  deriving DecidableEq, Repr

/-- A trace record that has been sent: its offset in the buffer ÷ 32, and the virtual key that it is for (R398, R399). -/
structure TraceSent where
  item : TraceRec
  off : Nat
  dest : Nat
  st : TraceSt
  deriving DecidableEq, Repr

/-- The debug module of a core (R392 to R395, R400); `stepCtx` is DBGCTL.CTX. -/
structure Dbg where
  stopped : Bool
  why : Nat
  ctx : Nat
  claim : Bool
  stepCtx : BitVec 4
  bkpt : Tab Word
  stepping : Option Nat
  record : List Word
  deriving DecidableEq, Repr

/-- The running matrix command: its next plane loaded or not (R325, R331). -/
structure MRun where
  cmd : MCmd
  loaded : Bool
  finished : Bool
  deriving DecidableEq, Repr

/-- A core: counters, core-held system registers, sidings, home tables, inbox, local time, slate groups, observation. `helds` are the
requests that the home has taken and holds back, oldest first: writes whose copies are still to go or that an overflow holds (R238,
R247), and accesses of a page that is to grow (R175); `hosted` are those that it has passed on to the host (R249); `traced` is the cycle
of the last trace event and how many of that cycle were accepted (R397), and `traceNet` the records sent and not yet done with, oldest
first: those on their way, and, from the first that has failed on, those performed (R399). -/
structure Core where
  cyc : Nat
  spare : Nat
  deleg : Word
  accown : BitVec 16
  ecost : Word
  ehold : Bool
  eshare : BitVec 16
  tquant : BitVec 32
  trounds : BitVec 16
  inoff : BitVec 16
  insize : BitVec 15
  thresh : BitVec 16
  sbank : BitVec 4
  slateErr : Bool
  cecnt : BitVec 8
  uecnt : BitVec 8
  sepiaErr : Bool
  sepiaName : Word
  prof : Tab (BitVec 24 × BitVec 40)
  trcctl : Word
  trclost : Word
  powered : Bool
  powering : Bool
  retained : Option Nat
  ranFor : List Nat
  mul : Option Nat
  divq : List DivOp
  late : List LateVal
  vq : List VCmd
  copies : List CopyCmd
  mat : List MCmd
  running : Option MRun
  suspended : List MCmd
  staged : List MCmd
  acc : Tab Word32
  badAcc : List Nat
  wcb : List Wcb
  atoms : List AtomOp
  l1 : List L1Line
  reps : Tab Replica
  resends : List (Req × Resend)
  msgResends : List MsgResend
  helds : List Req
  hosted : List Req
  waits : List Waiter
  watches : List (Nat × Nat)
  reserved : Tab Held
  dir : Tab DirLine
  ovfq : List (Nat × Bool × Nat)
  ib : List Ib
  ringW : Nat
  ringO : Nat
  ringUsed : Nat
  lt : Option LTime
  arrivals : List Parked
  cache : List Parked
  inflight : Nat
  delegq : List Deleg
  presented : Option Deleg
  groups : Tab Group
  badWords : List Nat
  softWords : List Nat
  bankErrs : Tab Nat
  failedBanks : List Nat
  scrubPos : Nat
  scrubs : List (Nat × Nat)
  trace : List TraceRec
  traceNet : List TraceSent
  traceGap : Bool
  traced : Nat × Nat
  dbg : Dbg
  gangStopped : Bool
  gangDue : Bool
  sent : Tab Nat
  recv : Tab Nat
  deriving DecidableEq, Repr

/-- A core after power-up of its die, before firmware has written anything: reset values of R90, R217,
R244, R255, R256, R284, R285, R315, R350, R359, R392, R396, R402; the banks are down. -/
def Core.zero : Core where
  cyc := 0
  spare := 0
  deleg := 0
  accown := 0
  ecost := 0x0010000400010000
  ehold := false
  eshare := 0x0100
  tquant := 0x00001000
  trounds := 0x0010
  inoff := 0
  insize := 0
  thresh := 0x0008
  sbank := 0
  slateErr := false
  cecnt := 0
  uecnt := 0
  sepiaErr := false
  sepiaName := 0
  prof := []
  trcctl := 0
  trclost := 0
  powered := false
  powering := false
  retained := none
  ranFor := []
  mul := none
  divq := []
  late := []
  vq := []
  copies := []
  mat := []
  running := none
  suspended := []
  staged := []
  acc := []
  badAcc := []
  wcb := []
  atoms := []
  l1 := []
  reps := []
  resends := []
  msgResends := []
  helds := []
  hosted := []
  waits := []
  watches := []
  reserved := []
  dir := []
  ovfq := []
  ib := []
  ringW := 0
  ringO := 0
  ringUsed := 0
  lt := none
  arrivals := []
  cache := []
  inflight := 0
  delegq := []
  presented := none
  groups := []
  badWords := []
  softWords := []
  bankErrs := []
  failedBanks := []
  scrubPos := 0
  scrubs := []
  trace := []
  traceNet := []
  traceGap := false
  traced := (0, 0)
  dbg := ⟨false, 0, 0, false, 0, [], none, []⟩
  gangStopped := false
  gangDue := false
  sent := []
  recv := []

/-! ### Dies -/

/-- States of an activity (R334). -/
inductive ActSt where
  | free | opened | committing | abandoning | abandoned | failed
  deriving DecidableEq, Repr

/-- An activity descriptor (R334, R335). -/
structure Act where
  gen : BitVec 32
  st : ActSt
  domain : Nat
  launch : Nat
  parts : Nat
  deriving DecidableEq, Repr

/-- A sepia record (R338); stamp 0 while its draw is under way (no stamp is 0, R336). -/
structure SRec where
  routine : Addr48
  handle : Word
  stamp : Word
  args : List Word
  core : Nat
  ctx : Nat
  failed : Bool
  skipped : Bool
  done : Bool
  valid : Bool
  durable : Bool
  deriving DecidableEq, Repr

/-- The record's slot is free (R340): its record is no longer valid, and no draw of its stamp is under way. -/
def SRec.spare (r : SRec) : Bool := !r.valid && r.stamp != 0

/-- The unwind of one domain (R344, R349): the record whose routine runs or is posted, and the record
that froze the domain with its failure status. -/
structure Dom where
  stamp : Word
  running : Option (Nat × Nat)
  frozen : Option (Nat × Nat × Word)
  deriving DecidableEq, Repr

/-- A compute die: ready queue, stealing, sepia unit and region, spill area, the spawners parked for it (the order in which they parked,
and the context); the context-cycles that each launch has occupied, and all of them, since the last energy interval (R403). -/
structure Die where
  queue : List Task
  posts : List (Nat × Nat)
  stealOut : Bool
  stealDir : Nat
  stealFail : Nat
  stealWait : Bool
  acts : Tab Act
  sepia : Tab SRec
  doms : Tab Dom
  spill : List Spill
  spawners : List (Nat × Nat)
  recv : Tab Nat
  intervals : Nat
  occ : Tab Nat
  cycles : Nat
  limitAmps : Nat
  holding : Bool
  deriving DecidableEq, Repr

/-- A die after power-up. -/
def Die.zero : Die where
  queue := []
  posts := []
  stealOut := false
  stealDir := 0
  stealFail := 0
  stealWait := false
  acts := []
  sepia := []
  doms := []
  spill := []
  spawners := []
  recv := []
  intervals := 0
  occ := []
  cycles := 0
  limitAmps := 0
  holding := false

/-- A cluster: its copy of GTIME, its clock level, the levels that heat has taken and whether the package's power is still too
high, its instruction cache and fetch port (R21, R85, R388 to R390). -/
structure Cluster where
  ns : Word
  frac : Nat
  inc : Nat
  level : Nat
  hot : Nat
  overload : Bool
  stopped : Bool
  icache : List Nat
  want : List (Nat × Nat)
  served : List (Nat × Nat)
  next : Nat
  deriving DecidableEq, Repr

/-- A cluster after reset: 1.75 GHz, GTIME 0 and an increment of 4/7 ns in units of 2^-32 ns. -/
def Cluster.zero : Cluster where
  ns := 0
  frac := 0
  inc := 2454267026
  level := 0
  hot := 0
  overload := false
  stopped := false
  icache := []
  want := []
  served := []
  next := 0

/-! ### Partitions, hubs and links -/

/-- A partition's scheduler: the blocks handed over and not yet decided (R38, R156), the energy of its idle account in pJ (R403), and the
placement table of its address space 0 (R232). -/
structure Part where
  submitted : List Block
  idle : Nat
  table : List Range
  deriving DecidableEq, Repr

/-- A message that a hub holds for a function (R381): HMDEST and DATA, and the cycles of its backoff once it has been refused. -/
structure HostMsg where
  dest : Word
  data : Word
  delay : Nat
  deriving DecidableEq, Repr

/-- A PCIe function's BAR 0 and queues (R378, R381, R392, R404). `readData` are the completions that the host has had: the data,
and whether they are poisoned or the access failed. -/
structure Func where
  launchw : Word
  bootErr : BitVec 4
  bootSt : BitVec 4
  gangPart : BitVec 8
  fwfault : List (Nat × BitVec 6)
  hmdest : Word
  hmdata : Word
  hmdrop : BitVec 32
  hmq : List HostMsg
  hbadw : BitVec 32
  hbada : BitVec 48
  dbgsel : BitVec 12
  dbgreg : BitVec 18
  msix : Nat
  readData : List (Word × Bool)
  staging : List (Nat × Word)
  report : Option Word
  deriving DecidableEq, Repr

/-- A function after reset. -/
def Func.zero : Func where
  launchw := 0
  bootErr := 0
  bootSt := 0
  gangPart := 0
  fwfault := []
  hmdest := 0
  hmdata := 0
  hmdrop := 0
  hmq := []
  hbadw := 0
  hbada := 0
  dbgsel := 0
  dbgreg := 0
  msix := 0
  readData := []
  staging := []
  report := none

/-- A flit that a peer port keeps for replay (R383): its sequence, the epoch of its key, and how often it has been replayed. -/
structure Flit where
  seq : BitVec 12
  epoch : Bool
  times : Nat
  deriving DecidableEq, Repr

/-- A peer port (R383 to R385): `nonce` counts the flits sent under the epoch's key, `rolling` says that a rollover has begun and
its marker has not arrived, `marker` is the marker's sequence once it has been sent, and `replayAsked` the first missing sequence of
which it has asked its peer for a replay. -/
structure PeerPort where
  up : Bool
  rxSeq : BitVec 12
  txSeq : BitVec 12
  nonce : BitVec 64
  epoch : Bool
  peerEpoch : Bool
  bothKeys : Bool
  rolling : Bool
  marker : Option (BitVec 12)
  rollWanted : Bool
  replay : List Flit
  replayAsked : Option (BitVec 12)
  deriving DecidableEq, Repr

/-- A peer port before training. -/
def PeerPort.zero : PeerPort where
  up := false
  rxSeq := 0
  txSeq := 0
  nonce := 0
  epoch := false
  peerEpoch := false
  bothKeys := false
  rolling := false
  marker := none
  rollWanted := false
  replay := []
  replayAsked := none

/-! ### Messages in flight -/

/-- What a message carries. -/
inductive Body where
  /-- a request to a home -/
  | req (r : Req)
  /-- a reply with a value (late or not), the home and bank for R401, and a cause of R179 -/
  | reply (r : Req) (v : Word) (cause : Option Cause)
  /-- an answer without a value to a packet that stays at stage 6 (WATCH, WAITA, BWT) -/
  | answer (r : Req) (v : Option Word)
  /-- an acknowledgement of posted operations -/
  | ack (r : Req) (count : Nat) (cause : Option Cause)
  /-- a fault reported for an operation: FC code of R218, and whether the home's own slate group could not give the word -/
  | fault (r : Req) (fc : Nat) (recon : Bool)
  /-- a refusal for a full table (R186) -/
  | refuse (r : Req)
  /-- an invalidation of a line to a sharer, by its home or by a store of the home's context 0 to the invalidate window (R238,
  R248, R258) -/
  | inval (line : Nat) (owner code : Nat) (window : Bool)
  /-- a replica's drop notice (R246) -/
  | drop (line : Nat) (die : Nat)
  /-- a wake of a watcher (R192) -/
  | wake (cid : Nat)
  /-- an orphaning message for a word that a thread held (R187, R242) -/
  | orphan (key : Nat) (tid : Nat)
  /-- SEND (R200) or a host message (R381): the posted operation, destination context, launch, message -/
  | send (r : Req) (ctx : Nat) (launch : Nat) (m : Rec)
  /-- TSEND (R203) -/
  | timed (r : Req) (launch : Nat) (t : Timed)
  /-- a word pushed onto a neighbour's facing FIFO (R206) -/
  | port (cid : Nat) (d : Dir) (v : Word)
  /-- a migration (R54) -/
  | migrate (p : Parked)
  /-- a SPAWN push (R149) -/
  | spawn (t : Task)
  /-- a steal request with the thief's free places, and its answer (R51) -/
  | steal (thief : Nat) (places : Nat)
  | stolen (thief : Nat) (ts : List Task)
  /-- an announcement (R365) -/
  | announce (src launch : Nat) (v : Word)
  /-- a back-invalidation that the host must acknowledge (R249) -/
  | backInval (line : Nat)
  deriving DecidableEq, Repr

/-- A message from a source to a destination (core numbers; 0xFFE and 0xFFF are the hubs; 0x1000 + d
the scheduler of die d). Messages of one source to one destination are delivered in order (R234). -/
structure Msg where
  src : Nat
  dst : Nat
  body : Body
  deriving DecidableEq, Repr

/-! ### Memory -/

/-- Memory: bytes that differ from what an unlisted key reads as, keys rising. -/
abbrev Memory := List Host.Cell

/-- What a byte that nothing has written reads as: zero. Scratchpad comes up zero-filled (R45); for
global memory the spec gives no contents (log 6). -/
def Memory.blank : Byte := 0

/-- A mapped page of 64 KiB, or of 32 MiB when `big` (R30): its address space (a partition × 2^16 and an address-space number,
R375), page number, frame number in its own size, and permissions. The frame lies in the package's HBM, or in coherent host
memory when `host` is set (R30, R249); `hostMem` says that the host may keep copies of the lines of an HBM page. -/
structure Page where
  space : Nat
  big : Bool
  vpn : Nat
  pfn : Nat
  r : Bool
  w : Bool
  x : Bool
  host : Bool
  hostMem : Bool
  deriving DecidableEq, Repr

/-- A step that the agenda may ask for (log 1): a step of the device, a turn of a core (which injects and performs a packet), or the
performance of the oldest packet that a context has injected; `sent` is that performance with a posted or full-empty operation of the
own scratchpad sent to its home like any other (R235), `word` the reading of a function's launch word by its hub's thread (R379),
`trace` the arrival of a core's oldest trace record on its way (R398), `read` a host's read of a BAR 0 register (R378), and `trust` the
next act of the root of trust (R386). -/
inductive Move where
  | event (i : Instr)
  | turn (core : Nat)
  | packet (cid : Nat)
  | sent (cid : Nat)
  | word (fn : Nat)
  | read (fn off : Nat)
  | trust
  | trace (core : Nat)
  deriving DecidableEq, Repr

/-- The whole package. Five fields are the model's own: `cur` is the context whose packet is performed, `agenda` the steps that come
next whatever they are, `slow` says that the step in progress is a `sent` one, `turn` counts the steps that the machine chose itself
(log 1), and `named` the threads that have been given a name (log 66). `now` is the copy of GTIME that is furthest on, and `beat` a
correction beat that hub W has sent and that has not reached the clusters yet (R388). -/
structure State where
  cur : Nat
  agenda : List Move
  slow : Bool
  turn : Nat
  mem : Memory
  pages : List Page
  hostLines : List Nat
  ctxs : Tab Ctx
  cores : Tab Core
  dies : Tab Die
  clusters : Tab Cluster
  parts : Tab Part
  launches : List Launch
  net : List Msg
  funcs : Tab Func
  ready : BitVec 50
  whole : Bool
  bootFirmware : Addr48
  ports : Tab PeerPort
  device : BitVec 17
  peers : Tab (List Nat)
  failed : List Nat
  offDies : List Nat
  stamp : Nat
  named : Nat
  now : Word
  beat : Option Word
  deriving DecidableEq, Repr

/-- The package right after power-up (R386): every unit waits for the host's image, no core runs. -/
def State.reset : State where
  cur := 0
  agenda := []
  slow := false
  turn := 0
  mem := []
  pages := []
  hostLines := []
  ctxs := []
  cores := []
  dies := []
  clusters := []
  parts := []
  launches := []
  net := []
  funcs := []
  ready := 0
  whole := true
  bootFirmware := 0
  ports := []
  device := 0
  peers := []
  failed := []
  offDies := []
  stamp := 0
  named := 0
  now := 0
  beat := none

end Sys2Proof.Machine
end

