-- ==== Sys2Proof/Machine/Mem.lean ====
section
/-! DEFINITION. Memory and addresses: the canonical byte map, keys, translation, core numbers, the
placement table and home_of (R28 to R31, R128, R232), and the partition of a core (R374). -/

namespace Sys2Proof.Machine

open Sys2Proof

/-! ### Bytes -/

/-- One byte. -/
def Memory.read : Memory → Nat → Byte
  | [], _ => Memory.blank
  | (a, b) :: rest, k => if a = k then b else Memory.read rest k

/-- Writes one byte and keeps the canonical form: keys rising, no listed byte equal to a blank one. -/
def Memory.write : Memory → Nat → Byte → Memory
  | [], k, v => if v = Memory.blank then [] else [(k, v)]
  | (a, b) :: rest, k, v =>
    if a = k then (if v = Memory.blank then rest else (k, v) :: rest)
    else if k < a then (if v = Memory.blank then (a, b) :: rest else (k, v) :: (a, b) :: rest)
    else (a, b) :: Memory.write rest k v

/-- The canonical form, from a lower bound on the keys. -/
def Memory.wfFrom : Nat → Memory → Bool
  | _, [] => true
  | lo, (a, b) :: rest => decide (lo ≤ a) && b != Memory.blank && Memory.wfFrom (a + 1) rest

/-- The canonical form of memory. -/
def Memory.wf (m : Memory) : Bool := Memory.wfFrom 0 m

/-- n bytes from a key upwards. -/
def Memory.bytes (m : Memory) (k : Nat) : Nat → List Byte
  | 0 => []
  | n + 1 => m.read k :: Memory.bytes m (k + 1) n

/-- Writes bytes from a key upwards. -/
def Memory.put (m : Memory) (k : Nat) : List Byte → Memory
  | [] => m
  | b :: rest => Memory.put (m.write k b) (k + 1) rest

/-- The little-endian number in n bytes. -/
def Memory.nat (m : Memory) (k n : Nat) : Nat := leNat (m.bytes k n)

/-- The 64-bit word at a key. -/
def Memory.word (m : Memory) (k : Nat) : Word := BitVec.ofNat 64 (m.nat k 8)

/-! ### Cores, contexts, dies -/

def coreOf (cid : Nat) : Nat := cid / 16
def ctxOf (cid : Nat) : Nat := cid % 16
def dieOf (core : Nat) : Nat := core / 512 % 8
def yOf (core : Nat) : Nat := core / 32 % 16
def xOf (core : Nat) : Nat := core % 32

/-- A number that names a core (R6, R7). -/
def isCore (n : Nat) : Bool := decide (n < 4096) && decide (xOf n ≤ 23)

/-- Indigo dies (R19). -/
def isIndigo (die : Nat) : Bool := die == 1 || die == 3 || die == 4 || die == 6

/-- CORE.EXT of a core lists X (R24). -/
def hasX (core : Nat) : Bool := isIndigo (dieOf core)

/-- The package number of a core's cluster (R6, R21). -/
def clusterOf (core : Nat) : Nat := dieOf core * 48 + yOf core / 4 * 12 + xOf core / 2

/-- Canonical place k of a core in its cluster (R41). -/
def placeInCluster (core : Nat) : Nat := yOf core % 4 * 2 + xOf core % 2

/-- The core at a canonical place of a cluster (R6, R41). -/
def coreAt (cluster place : Nat) : Nat :=
  let q := cluster % 48
  cluster / 48 * 512 + (q / 12 * 4 + place / 2) * 32 + (q % 12 * 2 + place % 2)

/-- The eight cores of a cluster in canonical order. -/
def coresOfCluster (cluster : Nat) : List Nat := (List.range 8).map (coreAt cluster)

/-- The clusters of a die. -/
def clustersOfDie (die : Nat) : List Nat := (List.range 48).map (fun q => die * 48 + q)

/-- The opposite direction. -/
def backDir : Dir → Dir
  | .north => .south | .south => .north | .east => .west | .west => .east

/-- A port's number within a context's port table. -/
def dirIdx : Dir → Nat
  | .north => 0 | .east => 1 | .south => 2 | .west => 3

/-- The neighbour of a core in a direction, or none at a hub or the package edge (R22). -/
def neighbour (core : Nat) (d : Dir) : Option Nat :=
  let die := dieOf core; let y := yOf core; let x := xOf core
  match d with
  | .north => if 1 ≤ y then some (core - 32)
              else if 4 ≤ die then some ((die - 4) * 512 + 15 * 32 + x) else none
  | .south => if y ≤ 14 then some (core + 32)
              else if die ≤ 3 then some ((die + 4) * 512 + x) else none
  | .east => if x ≤ 22 then some (core + 1)
             else if die != 3 && die != 7 then some ((die + 1) * 512 + y * 32) else none
  | .west => if 1 ≤ x then some (core - 1)
             else if die != 0 && die != 4 then some ((die - 1) * 512 + y * 32 + 23) else none

/-! ### Components of the state -/

def State.ctx (s : State) (cid : Nat) : Ctx := s.ctxs.get cid Ctx.zero
def State.setCtx (s : State) (cid : Nat) (c : Ctx) : State := { s with ctxs := s.ctxs.set cid c }
def State.core (s : State) (n : Nat) : Core := s.cores.get n Core.zero
def State.setCore (s : State) (n : Nat) (c : Core) : State := { s with cores := s.cores.set n c }
def State.die (s : State) (n : Nat) : Die := s.dies.get n Die.zero
def State.setDie (s : State) (n : Nat) (d : Die) : State := { s with dies := s.dies.set n d }
def State.cluster (s : State) (n : Nat) : Cluster := s.clusters.get n Cluster.zero
def State.setCluster (s : State) (n : Nat) (c : Cluster) : State := { s with clusters := s.clusters.set n c }
def State.func (s : State) (n : Nat) : Func := s.funcs.get n Func.zero
def State.setFunc (s : State) (n : Nat) (f : Func) : State := { s with funcs := s.funcs.set n f }
def State.peer (s : State) (n : Nat) : PeerPort := s.ports.get n PeerPort.zero
def State.setPeer (s : State) (n : Nat) (p : PeerPort) : State := { s with ports := s.ports.set n p }

/-- The running context. -/
def State.me (s : State) : Ctx := s.ctx s.cur
/-- Changes the running context. -/
def State.withMe (s : State) (f : Ctx → Ctx) : State := s.setCtx s.cur (f s.me)
/-- The running thread. -/
def State.th (s : State) : Thread := s.me.th
/-- Changes the running thread. -/
def State.withTh (s : State) (f : Thread → Thread) : State :=
  s.withMe (fun c => { c with th := f c.th })
/-- The core of the running context. -/
def State.here (s : State) : Nat := coreOf s.cur
/-- Changes one context. -/
def State.onCtx (s : State) (cid : Nat) (f : Ctx → Ctx) : State := s.setCtx cid (f (s.ctx cid))
/-- Changes one core. -/
def State.onCore (s : State) (n : Nat) (f : Core → Core) : State := s.setCore n (f (s.core n))
/-- Changes one die. -/
def State.onDie (s : State) (n : Nat) (f : Die → Die) : State := s.setDie n (f (s.die n))
/-- Changes one function. -/
def State.onFunc (s : State) (n : Nat) (f : Func → Func) : State := s.setFunc n (f (s.func n))

/-! ### Partitions, launches, placement -/

/-- The partition of a die (R374). -/
def State.partOf (s : State) (die : Nat) : Nat := if s.whole then 0xFF else die / 2

/-- The partition's scheduler; before firmware writes it, nothing submitted and the table of address
space 0 empty. -/
def State.part (s : State) (p : Nat) : Part := s.parts.get p ⟨[], 0, []⟩
def State.setPart (s : State) (p : Nat) (x : Part) : State := { s with parts := s.parts.set p x }

/-- The dies of a partition (R374). -/
def diesOfPart (p : Nat) : List Nat := if p = 0xFF then List.range 8 else [2 * p, 2 * p + 1]

/-- The key of a launch number in a partition. -/
def keyOf (part num : Nat) : Nat := part * 2 ^ 32 + num % 2 ^ 32

/-- A launch by key among those of a partition that are not ended. -/
def State.launch (s : State) (num : Nat) : Option Launch :=
  s.launches.find? (fun l => l.num == num && !l.ended)

/-- Changes a launch that has not ended. -/
def State.onLaunch (s : State) (num : Nat) (f : Launch → Launch) : State :=
  { s with launches := s.launches.map (fun l => if l.num == num && !l.ended then f l else l) }

/-- The placement table a context uses (R128): its launch's, or for context 0 (and a thread of no
launch) that of address space 0 of the partition. -/
def State.rangesOf (s : State) (cid : Nat) : List Range :=
  match (if ctxOf cid = 0 then none else s.launch (s.ctx cid).th.launch) with
  | some l => l.ranges
  | none => (s.part (s.partOf (dieOf (coreOf cid)))).table

/-- An address space of a partition: each partition has its own (R374, R375, R404). -/
def spaceOf (part asn : Nat) : Nat := part * 2 ^ 16 + asn % 2 ^ 16

/-- The partition of an address space. -/
def spacePart (space : Nat) : Nat := space / 2 ^ 16

/-- The address space a context uses (R128). -/
def State.asnOf (s : State) (cid : Nat) : Nat :=
  match (if ctxOf cid = 0 then none else s.launch (s.ctx cid).th.launch) with
  | some l => l.asn
  | none => spaceOf (s.partOf (dieOf (coreOf cid))) 0

/-- The range of a table that holds a virtual address (R232). -/
def rangeFor (rs : List Range) (va : Nat) : Option Range :=
  rs.find? (fun r => decide (r.base ≤ va) && decide (va < r.base + r.size))

/-- The home core that a range gives a virtual address (R128). -/
def homeInRange (r : Range) (va : Nat) : Nat :=
  let m := popNat 8 r.dies.toNat
  let die := (nthBit 8 r.dies.toNat 0 ((va - r.base) / r.gran % m)).getD 0
  let line := va / 256
  let h := line ^^^ (line / 2 ^ 9) ^^^ (line / 2 ^ 18) ^^^ (line / 2 ^ 27)
  let q := h % 384
  die * 512 + q / 24 * 32 + q % 24

/-- home_of (R128) for a context's partition and placement table. -/
def homeWith (s : State) (die : Nat) (rs : List Range) (x : Word) : Option Nat :=
  if bit x 63 then
    if bits x 31 32 != 0 then none
    else
      let c := bits x 19 12
      if isCore c && s.partOf (dieOf c) == s.partOf die then some c else none
  else if bits x 48 15 != 0 then none
  else
    match rangeFor rs (bits x 0 48) with
    | none => none
    | some r => some (homeInRange r (bits x 0 48))

/-- A scratchpad address. -/
def isPad (x : Word) : Bool := bit x 63

/-- A window of context 0 (R248, R351): neither placed nor translated. -/
def isWindow (cid : Nat) (x : Word) : Bool :=
  ctxOf cid == 0 && !isPad x && bits x 48 15 == 0 && (bits x 40 8 == 0xFF || bits x 40 8 == 0xFE)

/-- home_of for a context (R128). Log 83: a window address (R248, R351) has no home here, so HOME of one in context 0 gives all ones. -/
def State.homeOf (s : State) (cid : Nat) (x : Word) : Option Nat :=
  if isWindow cid x then none
  else homeWith s (dieOf (coreOf cid)) (s.rangesOf cid) x

/-- Scratchpad of a core kept for another launch (R59). -/
def State.retainedFor (s : State) (cid core : Nat) : Bool :=
  match (s.core core).retained with
  | none => false
  | some n => ctxOf cid != 0 && (s.ctx cid).th.launch != n

/-- An address that R31 or R59 refuses to a context. -/
def State.badAddr (s : State) (cid : Nat) (x : Word) : Bool :=
  match s.homeOf cid x with
  | none => true
  | some h => isPad x && s.retainedFor cid h

/-- The bytes of a core's overflow ring (R244): `none` when there is no ring. -/
def Core.ring (c : Core) : Option (Nat × Nat) :=
  let off := c.inoff.toNat * 8; let size := c.insize.toNat * 8
  if size < 24 || 2 ^ 19 < off + size then none else some (off, size)

/-- An access of n bytes by a context other than 0 that touches the ring of a core (R244). -/
def State.hitsRing (s : State) (cid : Nat) (x : Word) (n : Nat) : Bool :=
  isPad x && ctxOf cid != 0 &&
    match (s.core (bits x 19 12)).ring with
    | none => false
    | some (off, size) => decide (bits x 0 19 < off + size) && decide (off < bits x 0 19 + n)

/-- Travel on access applies to a global address for a context other than 0 (R180, R232). -/
def State.travels (s : State) (cid : Nat) (x : Word) : Bool :=
  if isPad x || ctxOf cid = 0 then false
  else
    match rangeFor (s.rangesOf cid) (bits x 0 48) with
    | some r => r.toa
    | none => false

/-! ### Routes and failed boundaries (R373, R405) -/

/-- The number of hub W as a source or destination of messages. -/
def hubW : Nat := 0xFFE

/-- The number of a hub. -/
def isHub (n : Nat) : Bool := n == hubW || n == hubW + 1

/-- The die at which a message of a node enters or leaves the grid, on a route whose other end is another node: a core's own
die, the die of a scheduler, and for a hub the end die of the other end's row, which between the hubs is row 0 (R405). -/
def gridDie (n other : Nat) : Nat :=
  let row := if isHub other then 0 else dieOf other / 4 * 4
  if n = hubW then row else if n = hubW + 1 then row + 3
  else if 0x1000 ≤ n then n % 8 else dieOf n

/-- The boundaries that a route from die a to die b crosses: along a's row, then along b's column. East–west boundaries of
the north row are 0 to 2, of the south row 3 to 5; north–south boundaries are 6 to 9 (the model's numbers, log 31). -/
def crossed (a b : Nat) : List Nat :=
  let lo := min (a % 4) (b % 4)
  let hi := max (a % 4) (b % 4)
  (List.range (hi - lo)).map (fun k => a / 4 * 3 + lo + k) ++ (if a / 4 == b / 4 then [] else [6 + b % 4])

/-- The boundaries of the detour of a boundary (R373). -/
def detour (b : Nat) : List Nat :=
  if b < 3 then [6 + b, 3 + b, 7 + b] else if b < 6 then [3 + b, b - 3, 4 + b]
  else if b < 9 then [b - 6, b + 1, b - 3] else [2, 8, 5]

/-- Some boundary of the route and its detour have both failed. -/
def State.severed (s : State) (src dst : Nat) : Bool :=
  (crossed (gridDie src dst) (gridDie dst src)).any (fun b =>
    s.failed.contains b && (detour b).any (fun d => s.failed.contains d))

/-! ### Keys and translation -/

/-- First key of global memory. -/
def globalBase : Nat := 2 ^ 64

/-- First key of coherent host memory, which the package reaches through CXL.cache (R30, R249). -/
def hostBase : Nat := 2 ^ 65

/-- The HBM stacks of a die (R19): three on an ochre die, one on an indigo die. -/
def stacksOf (die : Nat) : List Nat :=
  match die with
  | 0 => [0, 1, 2] | 1 => [3] | 2 => [4, 5, 6] | 3 => [7] | 4 => [8] | 5 => [9, 10, 11] | 6 => [12] | 7 => [13, 14, 15]
  | _ => []

/-- The bytes of one stack: 64 GiB (R25). Stack n holds the physical bytes from n × 64 GiB (log 67). -/
def stackSize : Nat := 2 ^ 36

/-- The die whose stack holds a physical byte of HBM, if one does. -/
def dieOfFrame (frame : Nat) : Option Nat := (List.range 8).find? (fun d => (stacksOf d).contains (frame / stackSize))

/-- The size of a page, its first virtual byte and its first byte of HBM or host memory (R30). -/
def Page.size (p : Page) : Nat := if p.big then 2 ^ 25 else 2 ^ 16
def Page.va (p : Page) : Nat := p.vpn * p.size
def Page.frame (p : Page) : Nat := p.pfn * p.size

/-- A page maps memory that its partition has: HBM in a stack of one of the partition's dies, or host memory (R375). -/
def Page.owned (p : Page) : Bool :=
  p.host || (match dieOfFrame p.frame with
    | some d => (diesOfPart (spacePart p.space)).contains d
    | none => false)

/-- The memory key of the byte of a page at an offset. -/
def Page.key (p : Page) (off : Nat) : Nat := (if p.host then hostBase else globalBase) + p.frame + off

/-- A memory key of coherent host memory. -/
def isHostKey (k : Nat) : Bool := decide (hostBase ≤ k)

/-- The virtual key of an address in an address space: the address itself in scratchpad, the address
space and virtual address above `globalBase` otherwise. -/
def vkey (asn : Nat) (x : Word) : Nat :=
  if isPad x then x.toNat else globalBase + asn * 2 ^ 48 + bits x 0 48

/-- A virtual key of scratchpad. -/
def padKey (k : Nat) : Bool := decide (k < globalBase)

/-- The core and offset of a scratchpad key. -/
def padCore (k : Nat) : Nat := k / 2 ^ 19 % 4096
def padOff (k : Nat) : Nat := k % 2 ^ 19

/-- The scratchpad key of an offset of a core. -/
def padAt (core off : Nat) : Nat := 2 ^ 63 + core * 2 ^ 19 + off

/-- The page that maps a virtual key (R30). -/
def State.pageOf (s : State) (k : Nat) : Option Page :=
  let space := (k - globalBase) / 2 ^ 48; let va := (k - globalBase) % 2 ^ 48
  s.pages.find? (fun p => p.space == space && va / p.size == p.vpn && p.owned)

/-- The memory key of a virtual key: itself in scratchpad, the frame's byte otherwise. -/
def State.phys (s : State) (k : Nat) : Option Nat :=
  if padKey k then some k
  else (s.pageOf k).map (fun p => p.key ((k - globalBase) % 2 ^ 48 - p.va))

/-- The memory key for a purpose, or the fault code (R218): 0 PAGE_FAULT, 1 ACCESS_FAULT. -/
def State.translate (s : State) (k : Nat) (write : Bool) : Except Nat Nat :=
  if padKey k then .ok k
  else
    match s.pageOf k with
    | none => .error 0
    | some p =>
      if (if write then p.w else p.r) then
        .ok (p.key ((k - globalBase) % 2 ^ 48 - p.va))
      else .error 1

end Sys2Proof.Machine
end

