-- ==== Sys2Proof/Machine/Record.lean ====
section
/-! DEFINITION. The 2 KiB record of a thread in a die's spill area (R227), and the registers that show a scoreboard entry
(R218) and the checker's state (R90). -/

namespace Sys2Proof.Machine

open Sys2Proof

/-! ### Words of system registers -/

/-- A scoreboard entry (R218): the register of a late load, zr included (R67), and 0 for other kinds. -/
def Score.word (e : Score) : Word :=
  let f := e.f
  let waddr := if f.kind = 2 || f.kind = 4 then bits f.addr 3 28 else bits f.addr 3 45
  let reg := if f.kind = 3 ∨ f.kind = 4 then (match f.reg with | some r => r.val | none => 16) else 0
  BitVec.ofNat 64 (f.kind % 8 * 2 ^ 61 + (if e.settled then 2 ^ 60 else 0) + f.fc % 4 * 2 ^ 58 + reg * 2 ^ 53
    + f.seq.toNat * 2 ^ 45 + waddr)

/-- SIGCTL (R90). -/
def Sig.word (g : Sig) : Word :=
  BitVec.ofNat 64 (g.crc.toNat * 2 ^ 16 + min g.n 0xFF * 2 ^ 8 + (if g.isOpen then 2 else 0) + (if g.en then 1 else 0))

/-! ### The record (R227) -/

/-- The state code of a held thread in the spill area (R34). -/
def Held3.state : Held3 → Nat
  | .suspended | .rescued => 5
  | .arrival | .resend .. => 6

/-- The place of a held thread (R227). -/
def Held3.place : Held3 → Nat
  | .suspended => 1
  | .arrival | .resend .. => 2
  | .rescued => 3

/-- The thread that a place of R227 holds. -/
def Held3.ofPlace : Nat → Held3
  | 1 => .suspended
  | 3 => .rescued
  | _ => .arrival

/-- The system registers that the record saves, in increasing register number: STATUS, CTX, LAUNCH, FPFLAGS, FPMODE, FERETRY,
the five counts, MSGHDR, EBUDGET, ACTCUR, TNEXT, MXSAT, MXNAN, MXBSO, MXTHR, SIGCTL, TVEC, EPC, CAUSE, DETAIL, MIGMASK.
Log 89: those that a thread owns; UNACK and OUTLD are 0, and the other counts are kept with the commands they count. -/
def Parked.sysWords (p : Parked) : List Word :=
  let t := p.th
  [BitVec.ofNat 64 ((if t.comp then 32 else 0) + (if t.inTrap then 16 else 0)), BitVec.ofNat 64 (p.origin % 16),
    BitVec.ofNat 64 (t.prio % 4 * 2 ^ 32 + t.launch % 2 ^ 32), t.fpflags.zeroExtend 64, t.fpmode.zeroExtend 64,
    t.feretry.zeroExtend 64, 0, 0, 0, 0, 0, t.msghdr, t.ebudget.zeroExtend 64, t.actcur, t.tnext, t.mxsat.zeroExtend 64,
    t.mxnan.zeroExtend 64, t.mxbso.zeroExtend 64, t.mxthr.zeroExtend 64, t.sig.word, t.tvec.zeroExtend 64 <<< 2,
    t.epc.zeroExtend 64 <<< 2, t.cause, t.detail, t.migmask.zeroExtend 64, 0, 0, 0, 0, 0, 0, 0]

/-- The iteration fetcher in eight words (R52, R145). -/
def Nest.words (n : Nest) : List Word :=
  [n.ctr, BitVec.ofNat 64 n.n, BitVec.ofNat 64 (n.e0 + n.e1 * 2 ^ 32), BitVec.ofNat 64 (n.e2 + n.e3 * 2 ^ 32),
    BitVec.ofNat 64 (n.p + n.minc * 2 ^ 32), BitVec.ofNat 64 n.i, BitVec.ofNat 64 n.stop, if n.active then 1 else 0]

/-- The iteration fetcher of eight words. -/
def Nest.ofWords (ws : List Word) (claims : List Claim) : Nest :=
  let w (k : Nat) : Word := ws.getD k 0
  { active := bit (w 7) 0
    ctr := w 0
    n := (w 1).toNat
    e0 := bits (w 2) 0 32
    e1 := bits (w 2) 32 32
    e2 := bits (w 3) 0 32
    e3 := bits (w 3) 32 32
    p := bits (w 4) 0 32
    minc := bits (w 4) 32 32
    i := (w 5).toNat
    stop := (w 6).toNat
    claims := claims }

/-- The bytes that a posted operation writes, as a number, how many they are, and their mask. -/
def ReqOp.posted : ReqOp → Word × Nat × Nat
  | .store bs _ => (BitVec.ofNat 64 (leNat (bs.map (fun b => b.2))), bs.length, bs.foldl (fun m b => m + 2 ^ (b.1 % 32)) 0)
  | .stf v | .release v => (v, 8, 255)
  | .binit b => (b, 8, 255)
  | _ => (0, 0, 0)

/-- The record of a posted store (R227): its address, its data, and a word with its size, its sequence and its byte mask.
Log 89: the places of the three in that word. -/
def Score.posted (e : Score) : List Word :=
  match e.f.op with
  | .req r =>
    let d := r.op.posted
    [e.f.addr, d.1, BitVec.ofNat 64 (d.2.1 + e.f.seq.toNat * 2 ^ 8 + d.2.2 * 2 ^ 16)]
  | _ => [e.f.addr, 0, BitVec.ofNat 64 (e.f.seq.toNat * 2 ^ 8)]

/-- The posted stores of a thread's unsettled scoreboard entries (R218, R227). -/
def Thread.postedStores (t : Thread) : List Score :=
  (List.map (fun (e : Nat × Score) => e.2) t.score).filter (fun e => !e.settled && (e.f.kind == 1 || e.f.kind == 2))

/-- A lane's first eight records, each of header, payload and a word whose bit 0 marks it valid. -/
def laneWords (l : List Rec) : List Word :=
  (List.range 8).flatMap (fun k => match l[k]? with
    | some r => [r.hdr, r.data, 1]
    | none => [0, 0, 0])

/-- The records of a lane's 24 words. -/
def laneOf (ws : List Word) : List Rec :=
  (List.range 8).filterMap (fun k => if bit (ws.getD (3 * k + 2) 0) 0 then some ⟨ws.getD (3 * k) 0, ws.getD (3 * k + 1) 0⟩ else none)

/-- Words filled up with zeros to a number of them. -/
def padWords (n : Nat) (ws : List Word) : List Word := (List.range n).map (fun k => ws.getD k 0)

/-- THE SPILL RECORD (R227): 256 words, each part at its offset. -/
def Parked.record (p : Parked) : List Word :=
  let t := p.th
  [t.pc.zeroExtend 64, BitVec.ofNat 64 (t.launch % 2 ^ 32 * 2 ^ 32 + p.why.place * 2 ^ 4 + p.why.state)]
    ++ (List.range 16).map (fun k => t.gpr.get k 0)
    ++ p.sysWords
    ++ (List.range 16).map (fun k => match t.score.find k with | some e => e.word | none => 0)
    ++ t.nest.words
    ++ padWords 16 (t.resv.map (fun k => BitVec.ofNat 64 k))
    ++ padWords 48 (t.postedStores.flatMap Score.posted)
    ++ (laneWords t.cq ++ laneWords t.mq ++ laneWords t.vq)
    ++ List.replicate 46 0

/-- What the record of a held thread has no place for (log 89): the model's names, the replays of its scoreboard entries, its pending
pushes and events, its slot, the fields of SIGCTL that are not its EN, and what its save area holds. -/
def Parked.beyond (p : Parked) : Parked :=
  { p with
    why := .arrival
    th := { p.th with
      pc := 0
      gpr := []
      launch := p.th.launch / 2 ^ 32 * 2 ^ 32
      comp := false
      inTrap := false
      fpflags := 0
      fpmode := 0
      feretry := 0
      msghdr := 0
      ebudget := 0
      actcur := 0
      tnext := 0
      mxsat := 0
      mxnan := 0
      mxbso := 0
      mxthr := 0
      tvec := 0
      epc := 0
      cause := 0
      detail := 0
      migmask := 0
      nest := { Thread.zero.nest with claims := p.th.nest.claims }
      cq := p.th.cq.drop 8
      mq := p.th.mq.drop 8
      vq := p.th.vq.drop 8 } }

/-- The thread that a record holds, with what the record has no place for. -/
def Parked.restored (p : Parked) (ws : List Word) : Parked :=
  let w (k : Nat) : Word := ws.getD k 0
  let sys (k : Nat) : Word := w (18 + k)
  { p with
    why := Held3.ofPlace (bits (w 1) 4 4)
    th := { p.th with
      pc := (w 0).truncate 48
      gpr := (List.range 16).filterMap (fun k => let x := w (2 + k); if x = 0 then none else some (k, x))
      launch := p.th.launch + bits (w 1) 32 32
      comp := bit (sys 0) 5
      inTrap := bit (sys 0) 4
      fpflags := (sys 3).truncate 5
      fpmode := (sys 4).truncate 2
      feretry := (sys 5).truncate 16
      msghdr := sys 11
      ebudget := (sys 12).truncate 32
      actcur := sys 13
      tnext := sys 14
      mxsat := (sys 15).truncate 32
      mxnan := (sys 16).truncate 32
      mxbso := (sys 17).truncate 32
      mxthr := (sys 18).truncate 48
      tvec := (sys 20).extractLsb' 2 46
      epc := (sys 21).extractLsb' 2 46
      cause := sys 22
      detail := sys 23
      migmask := (sys 24).truncate 16
      nest := Nest.ofWords ((ws.drop 66).take 8) p.th.nest.claims
      cq := laneOf ((ws.drop 138).take 24) ++ p.th.cq
      mq := laneOf ((ws.drop 162).take 24) ++ p.th.mq
      vq := laneOf ((ws.drop 186).take 24) ++ p.th.vq } }

/-! ### The spill area -/

/-- A held thread as the spill area of its core's die holds it. -/
def Spill.of (core : Nat) (p : Parked) : Spill := ⟨core, p.record, p.beyond⟩

/-- The thread of a spill record. -/
def Spill.parked (e : Spill) : Parked := e.rest.restored e.record

/-- A spill record whose thread has changed. -/
def Spill.map (f : Parked → Parked) (e : Spill) : Spill := Spill.of e.core (f e.parked)

/-- The threads of a spill area that belong to a core. -/
def Die.spilledFor (d : Die) (core : Nat) : List Parked := (d.spill.filter (fun e => e.core == core)).map Spill.parked

/-- A held thread joins a die's spill area. -/
def Die.spillIn (d : Die) (core : Nat) (p : Parked) : Die := { d with spill := d.spill ++ [Spill.of core p] }

/-- A held thread leaves a die's spill area. -/
def Die.spillOut (d : Die) (core : Nat) (p : Parked) : Die :=
  { d with spill := d.spill.eraseP (fun e => e.core == core && e.parked == p) }

end Sys2Proof.Machine
end

