-- ==== Sys2Proof/Machine/Ops.lean ====
section
/-! DEFINITION. Shared operations on contexts: the foot of the pipe (landing, late values, kill waves),
performing and finishing a packet, waiting, the signature checker, trace notes, the end of a thread,
and TAKING AN EXCEPTION (`State.trap`, R214 to R222) with the return from one (`State.tret`, R171). -/

namespace Sys2Proof.Machine

open Sys2Proof

/-! ### Words -/

/-- The word of an instruction, as DETAIL shows it (R214). -/
def wordOf (i : Instr) : Word := ((encode i).getD 0).zeroExtend 64

/-- A 48-bit address as a register value. -/
def ofAddr (a : Addr48) : Word := a.zeroExtend 64

/-- The low 48 bits of a register value. -/
def toAddr (v : Word) : Addr48 := v.truncate 48

/-- The next instruction's address. -/
def nextPc (a : Addr48) : Addr48 := a + 4

/-! ### Trace notes (R396, R397) -/

/-- One more record lost (R396). -/
def lostOne (v : Word) : Word := if (lo32 v).toNat = 2 ^ 32 - 1 then v else v + 1

/-- No record that a core's encoder has queued is still to be written (R396). -/
def Core.traceIdle (c : Core) : Bool := c.trace.isEmpty && c.traceNet.isEmpty

/-- Trace events of a core's present cycle that its encoder has accepted. -/
def Core.tracedNow (c : Core) : Nat := if c.traced.1 = c.cyc then c.traced.2 else 0

/-- Queues a trace record when the core traces records of this kind; a full encoder drops and counts it, as does one that has
accepted its events of the cycle or that a fault has halted (R397, R399). -/
def State.note (s : State) (cid kind : Nat) (q : BitVec 8) (pc : Addr48) (a b : Word) : State :=
  let c := s.core (coreOf cid)
  let a := if kind == 0x9 || kind == 0xA || kind == 0xC then a ||| (Config.freePlace c.cyc c.trace.length).zeroExtend 64 else a
  if decide (8 ≤ kind) && !(bit c.trcctl 10) then s
  else if bit c.trcctl 11 then
    if c.trace.length < Config.traceMax ∧ c.tracedNow < Config.traceRate then
      s.setCore (coreOf cid)
        { c with trace := c.trace ++ [⟨kind, ctxOf cid, q, pc, c.traceGap, c.cyc, a, b⟩], traceGap := false, traced := (c.cyc, c.tracedNow + 1) }
    else s.setCore (coreOf cid) { c with trclost := lostOne c.trclost, traceGap := true }
  else if bit c.trcctl 9 then s.setCore (coreOf cid) { c with trclost := lostOne c.trclost, traceGap := true }
  else s

/-! ### Landing entries and late values (R70, R76, R77) -/

/-- What a packet that reads a register finds at the foot: a value, or nothing while the register
awaits a late value. The youngest landing entry that holds something stands before the store. -/
def Ctx.view (c : Ctx) (r : Fin 16) : Option Word :=
  match c.landing.reverse.find? (fun e => e.reg == r && e.val != .reserved) with
  | some e => match e.val with
    | .ordinary v => some v
    | _ => none
  | none => if (c.awaited.find r.val).isSome then none else some (c.th.gpr.get r.val 0)

/-- Drains one landing entry into the register store (R77). -/
def Ctx.drainEntry (c : Ctx) (e : Landing) : Ctx :=
  match e.val with
  | .ordinary v => { c with th := { c.th with gpr := c.th.gpr.set e.reg.val v }, awaited := c.awaited.del e.reg.val }
  | .late => { c with awaited := c.awaited.set e.reg.val e.seq }
  | .reserved => c

/-- The sequence of a packet is certified at the foot; a reserved entry that got no result is given back. -/
def certify (q : BitVec 8) (l : List Landing) : List Landing :=
  (l.filter (fun e => !(e.seq == q && e.val == .reserved))).map (fun e => if e.seq == q then { e with certified := true } else e)

/-- The oldest packet at the top retires (R77): it is certified, and its FP flags are merged (R84). -/
def Ctx.retireOne (c : Ctx) : Ctx :=
  match c.retiring with
  | [] => c
  | p :: rest =>
    { c with
      retiring := rest
      landing := certify p.seq c.landing
      th := { c.th with fpflags := c.th.fpflags ||| p.flags } }

/-- The oldest certified entry of a context drains (R77). -/
def Ctx.drainOne (c : Ctx) : Option Ctx :=
  match c.landing with
  | [] => none
  | e :: rest => if e.certified then some { c.drainEntry e with landing := rest } else none

/-- Puts a result into the landing entry reserved for its packet (R77, R176); a packet that has not come through the foot has
reserved none, and its result takes a new one. -/
def Ctx.land (c : Ctx) (q : BitVec 8) (r : Fin 16) (v : Landed) : Ctx :=
  if c.landing.any (fun e => e.seq == q && e.reg == r && e.val == .reserved) then
    { c with landing := c.landing.map (fun e =>
        if e.seq == q && e.reg == r && e.val == .reserved then { e with val := v } else e) }
  else { c with landing := c.landing ++ [⟨q, r, v, false⟩] }

/-- A late value at the foot (R76): fills its late entry, or the register store, or is discarded. -/
def Ctx.landLate (c : Ctx) (q : BitVec 8) (r : Fin 16) (v : Word) : Ctx :=
  if c.landing.any (fun e => e.seq == q && e.reg == r && e.val == .late) then
    { c with landing := c.landing.map (fun e =>
        if e.seq == q && e.reg == r && e.val == .late then { e with val := .ordinary v } else e) }
  else if c.awaited.find r.val == some q then
    { c with th := { c.th with gpr := c.th.gpr.set r.val v }, awaited := c.awaited.del r.val }
  else c

/-- A late value finds its late entry or the register that awaits it (R76). -/
def Ctx.takesLate (c : Ctx) (q : BitVec 8) (r : Fin 16) : Bool :=
  c.landing.any (fun e => e.seq == q && e.reg == r && e.val == .late) || c.awaited.find r.val == some q

/-- Clears what awaits a late request without giving it a value: the register keeps its old one (R172). -/
def Ctx.dropLate (c : Ctx) (q : BitVec 8) (r : Fin 16) : Ctx :=
  { c with
    landing := c.landing.filter (fun e => !(e.seq == q && e.reg == r && e.val == .late)),
    awaited := if c.awaited.find r.val == some q then c.awaited.del r.val else c.awaited }

/-! ### Meetings with the packets still climbing (R73) -/

/-- What a result named r does to one source slot. -/
def Slot.meet (sl : Slot) (r : Reg) (q : BitVec 8) (kind : Landed) (isLateValue : Bool) : Slot :=
  let go (reg : Reg) (mine : Bool) : Slot :=
    if reg == r then
      match kind with
      | .ordinary v =>
        if isLateValue then (if mine then .garnered reg v q else sl) else .garnered reg v q
      | _ => .empty reg q
    else sl
  match sl with
  | .none => .none
  | .later reg => .later reg
  | .empty reg q' => go reg (q' == q)
  | .fetched reg _ _ => go reg false
  | .garnered reg _ _ => go reg false

/-- A result meets the injected packets, oldest first; a packet whose destination is the same register
shadows it for the packets behind. -/
def meetAll : List Packet → Reg → BitVec 8 → Landed → Bool → List Packet
  | [], _, _, _, _ => []
  | p :: rest, r, q, k, l =>
    let p' := { p with a := p.a.meet r q k l, b := p.b.meet r q k l, c := p.c.meet r q k l }
    if p.dreg == some r then p' :: rest else p' :: meetAll rest r q k l

/-- The injected packets younger than q meet a result of q named r. -/
def Ctx.meeting (c : Ctx) (q : BitVec 8) (r : Reg) (v : Landed) : Ctx :=
  { c with injected := match c.injected with
      | [] => []
      | p :: rest => if p.seq == q then p :: meetAll rest r q v false else meetAll (p :: rest) r q v false }

/-- A result of packet q for register r: it lands, and the younger injected packets garner it. -/
def Ctx.result (c : Ctx) (q : BitVec 8) (r : Fin 16) (v : Landed) : Ctx := (c.land q r v).meeting q (.g r) v

/-- A source slot garners a result (R73, R397). -/
def Slot.garners (sl : Slot) (r : Reg) (q : BitVec 8) (k : Landed) (l : Bool) : Bool :=
  match sl.meet r q k l with
  | .garnered r' v q' => sl != .garnered r' v q'
  | _ => false

/-- Word A of a garnering, shadowing or landing record (R397; log 30): register and producer; the place on the tracks joins them when the
record is made. -/
def resultWord (r : Reg) (q : BitVec 8) : Word := BitVec.ofNat 64 (r.num * 2 ^ 32 + q.toNat * 2 ^ 8)

/-- The value of a result in a trace record. -/
def Landed.word : Landed → Word
  | .ordinary v => v
  | _ => 0

/-- The records of a result's meetings, from the top down (R73, R397): kind, sequence, address, A and B. -/
def meetRecs : List Packet → Reg → BitVec 8 → Landed → Bool → List (Nat × BitVec 8 × Addr48 × Word × Word)
  | [], _, _, _, _ => []
  | p :: rest, r, q, k, l =>
    (if p.a.garners r q k l || p.b.garners r q k l || p.c.garners r q k l then [(0x9, p.seq, p.pc, resultWord r q, k.word)] else [])
      ++ if p.dreg == some r then [(0xA, p.seq, p.pc, resultWord r q, 0)] else meetRecs rest r q k l

/-- Notes the meetings of a result with the injected packets younger than q. -/
def State.noteMeeting (s : State) (cid : Nat) (q : BitVec 8) (r : Reg) (k : Landed) (l : Bool) : State :=
  let ps := (s.ctx cid).injected
  (meetRecs (if (ps.head?.map (fun p => p.seq)) == some q then ps.tail else ps) r q k l).foldl
    (fun s e => s.note cid e.1 e.2.1 e.2.2.1 e.2.2.2.1 e.2.2.2.2) s

/-- Notes a result's meetings and its landing (R397). -/
def State.noteResult (s : State) (cid : Nat) (q : BitVec 8) (r : Reg) (k : Landed) (l : Bool) : State :=
  (s.noteMeeting cid q r k l).note cid 0xC q (s.ctx cid).th.pc (resultWord r q) k.word

/-! ### Kill waves (R80, R81) -/

/-- A wave as it descends: it deletes the younger packets and the waves of greater s. -/
def Ctx.launchWave (c : Ctx) (w : Wave) : Ctx :=
  { c with
    injected := c.injected.filter (fun p => !seqGt p.seq w.s)
    waves := c.waves.filter (fun v => !seqGt v.s w.s) ++ [w]
    bay := none
    answered := false
    carried := none
    owed := [] }

/-- A wave at the foot: younger landing entries go, fetch turns to its address, the next packet takes
sequence s + 1. -/
def Ctx.applyWave (c : Ctx) (w : Wave) : Ctx :=
  { c with
    landing := c.landing.filter (fun e => !seqGt e.seq w.s)
    injected := c.injected.filter (fun p => !seqGt p.seq w.s)
    fetchPc := w.redirect
    seq := w.s + 1 }

/-- Every wave on its way reaches the foot, in the order of launch. -/
def Ctx.applyWaves (c : Ctx) : Ctx :=
  { (c.waves.foldl Ctx.applyWave c) with waves := [] }

/-- Notes a wave and the stage that launches it (R80, R397). -/
def State.noteWave (s : State) (cid : Nat) (q : BitVec 8) (stage : Nat := 10) : State :=
  s.note cid 0xB q (s.ctx cid).th.pc (q.zeroExtend 64) (BitVec.ofNat 64 stage)

/-- Launches a wave and notes it. -/
def State.wave (s : State) (cid : Nat) (q : BitVec 8) (tgt : Addr48) (stage : Nat := 10) : State :=
  (s.noteWave cid q stage).onCtx cid (fun c => c.launchWave ⟨q, tgt⟩)

/-! ### Counts of R177 -/

/-- UNACK. -/
def Ctx.unack (c : Ctx) : Nat := c.posted.length
/-- OUTLD. -/
def Ctx.outld (c : Ctx) : Nat := c.lates.length

/-- Vector stores. -/
def isVStore : Instr → Bool
  | .vst .. | .vsts .. | .vscat .. | .vstk .. => true
  | _ => false

/-- OUTST: UNACK and the vector stores not yet performed. -/
def State.outst (s : State) (cid : Nat) : Nat :=
  (s.ctx cid).unack
    + ((s.core (coreOf cid)).vq.filter (fun v => v.cid == cid && isVStore v.i)).length

/-- Vector commands of a context not yet complete. -/
def State.outv (s : State) (cid : Nat) : Nat :=
  ((s.core (coreOf cid)).vq.filter (fun v => v.cid == cid)).length

/-- OUTCP. -/
def State.outcp (s : State) (cid : Nat) : Nat :=
  ((s.core (coreOf cid)).copies.filter (fun v => v.cid == cid && v.status == 0)).length

/-- OUTMX: queued, staged (in the slot, with a copy, or waiting to enter), running and suspended commands. -/
def State.outmx (s : State) (cid : Nat) : Nat :=
  let c := s.core (coreOf cid)
  (c.mat.filter (fun v => v.cid == cid)).length
    + ((c.copies.filterMap (fun v => v.staged)).filter (fun v => v.cid == cid)).length
    + (c.staged.filter (fun v => v.cid == cid)).length
    + (c.suspended.filter (fun v => v.cid == cid)).length
    + (if (s.ctx cid).th.mat.slot.isSome then 1 else 0)
    + (match c.running with | some r => if r.cmd.cid == cid then 1 else 0 | none => 0)

/-! ### The packet being performed -/

/-- The sequence of the packet that the running context performs: that of its oldest injected packet,
or the next one that the foot gives (R69). -/
def Ctx.seqNow (c : Ctx) : BitVec 8 :=
  match c.injected with
  | p :: _ => p.seq
  | [] => c.seq

/-- The sequence of the packet that the running context performs. -/
def State.seqNow (s : State) : BitVec 8 := s.me.seqNow

/-- Writes a general register of the running context. -/
def State.setG (s : State) (r : Fin 16) (v : Word) : State :=
  (s.noteResult s.cur s.seqNow (.g r) (.ordinary v) false).withMe (fun c => c.result c.seqNow r (.ordinary v))

/-- Marks a general register as awaiting the late value of this packet (R75). -/
def State.markLate (s : State) (cid : Nat) (q : BitVec 8) (r : Fin 16) : State :=
  (s.noteResult cid q (.g r) .late false).onCtx cid (fun c => c.result q r .late)

/-! ### Fetching instruction words (R30, R85) -/

/-- The instruction word at an address of a context, or none when no executable page maps it. -/
def State.fetchWord (s : State) (cid : Nat) (pc : Addr48) : Option Word32 :=
  let k := globalBase + s.asnOf cid * 2 ^ 48 + pc.toNat
  match s.pageOf k with
  | none => none
  | some p =>
    if p.x then some (BitVec.ofNat 32 (s.mem.nat (p.key (pc.toNat - p.va)) 4)) else none

/-! ### Signatures (R87 to R90) -/

/-- CRC-16 with polynomial 0x1021, one bit. -/
def crcBit (c : BitVec 16) : BitVec 16 :=
  if c.getLsbD 15 then (c <<< 1) ^^^ 0x1021#16 else c <<< 1

/-- CRC-16 over one more byte. -/
def crc16 (c : BitVec 16) (b : BitVec 8) : BitVec 16 :=
  let c := c ^^^ (b.zeroExtend 16 <<< 8)
  crcBit (crcBit (crcBit (crcBit (crcBit (crcBit (crcBit (crcBit c)))))))

/-- The registers that the checker tracks: those that carry values between packets (R67). -/
def carries : Reg → Option Nat
  | .g n => some n.val
  | .ix n => some (25 + n.val)
  | _ => none

/-- source_byte of R88. -/
def Sig.srcByte (g : Sig) (r : Option Reg) : BitVec 8 :=
  match r with
  | none => 0
  | some r =>
    match carries r with
    | none => 0
    | some x =>
      match g.last.find x with
      | none => 0xFF
      | some l => if 254 < g.n - l then 0xFF else BitVec.ofNat 8 (g.n - l)

/-- The checker after one more packet of an open block: major byte, two source bytes, destination. -/
def Sig.count (g : Sig) (major : BitVec 8) (a b : Option Reg) (d : Option Reg) : Sig :=
  if !g.isOpen then g
  else
    let g := { g with n := g.n + 1 }
    let crc := crc16 (crc16 (crc16 g.crc major) (g.srcByte a)) (g.srcByte b)
    { g with
      crc := crc
      last := match d.bind carries with
        | some x => g.last.set x g.n
        | none => g.last }

/-- The block's final CRC when its last packet goes or does not go to its target. -/
def Sig.final (g : Sig) (taken : Bool) : BitVec 16 := crc16 g.crc (if taken then 1 else 0)

/-- The value that the final CRC is compared with. -/
def Sig.expected (g : Sig) (taken : Bool) : BitVec 16 := if taken then g.e1 else g.e0

/-! ### Occupied contexts -/

/-- A live thread is in the context. -/
def Ctx.holdsThread (c : Ctx) : Bool := c.run != .vacant && c.run != .killed

/-- The context is occupied, if only by a killed thread that waits to be reaped (R34, R57). -/
def Ctx.occupied (c : Ctx) : Bool := c.run != .vacant

/-- A context waits at its TDEQ or SPAWN no longer: it leaves the orders of R363 and of R49. -/
def State.leaveOrders (s : State) (cid : Nat) : State :=
  let s := s.onCore (coreOf cid) (fun c => { c with lt := c.lt.map (fun t => { t with waiters := t.waiters.filter (fun k => k != cid) }) })
  { s with dies := s.dies.mapVal (fun d => { d with spawners := d.spawners.filter (fun k => k.2 != cid) }) }

/-! ### Waiting (R78, R79) -/

/-- The running context waits; nothing has been performed. -/
def State.waitFor (s : State) (w : Wait) : Out State :=
  .next (s.withMe (fun c => { c with run := .waiting w }))

/-- Makes a waiting or parked context runnable. -/
def State.wake (s : State) (cid : Nat) : State :=
  s.onCtx cid (fun c => match c.run with
    | .waiting _ | .parked _ => { c with run := .runnable }
    | _ => c)

/-! ### Messages in flight -/

/-- Sends a message. -/
def State.send (s : State) (src dst : Nat) (b : Body) : State := { s with net := s.net ++ [⟨src, dst, b⟩] }

/-- A core's cluster has stopped for a frequency change: its pipe and sidings stand, and its messages wait in the routers (R389). -/
def State.clockStops (s : State) (core : Nat) : Bool := (s.cluster (clusterOf core)).stopped

/-- A message waits in the routers of its destination's cluster (R389). -/
def State.routerHolds (s : State) (m : Msg) : Bool := isCore m.dst && s.clockStops m.dst

/-- The n-th message in flight, when it is the oldest of its source and destination (R234) and its cluster takes it. -/
def State.msgAt (s : State) (n : Nat) : Option Msg :=
  match s.net[n]? with
  | none => none
  | some m => if s.routerHolds m || (s.net.take n).any (fun x => x.src == m.src && x.dst == m.dst) then none else some m

/-- Takes the n-th message out of flight. -/
def State.dropMsg (s : State) (n : Nat) : State := { s with net := s.net.eraseIdx n }

/-! ### Activities: detachment and loss (R160 to R163, R340, R341) -/

/-- A handle's die, slot, generation and domain (R157). -/
def hDie (h : Word) : Nat := bits h 16 3
def hSlot (h : Word) : Nat := bits h 8 8
def hGen (h : Word) : BitVec 32 := hi32 h
def hDomain (h : Word) : Nat := bits h 0 8

/-- The handle of a descriptor. -/
def handleOf (die slot : Nat) (a : Act) : Word :=
  BitVec.ofNat 64 (a.gen.toNat * 2 ^ 32 + die * 2 ^ 16 + slot * 2 ^ 8 + a.domain)

/-- The activity that a current handle names. -/
def State.actOf (s : State) (h : Word) : Option Act :=
  match (s.die (hDie h)).acts.find (hSlot h) with
  | none => none
  | some a => if a.st != .free && a.gen == hGen h && a.domain == hDomain h && bits h 19 13 = 0 && h != 0 then some a else none

/-- Changes an activity. -/
def State.onAct (s : State) (h : Word) (f : Act → Act) : State :=
  match s.actOf h with
  | none => s
  | some a => s.onDie (hDie h) (fun d => { d with acts := d.acts.set (hSlot h) (f a) })

/-- A held or travelling participant of an activity: detached, the event pending (R343). -/
def Parked.told (h : Word) (p : Parked) : Parked :=
  if p.th.actcur == h then { p with th := { p.th with actcur := 0 }, asyncs := p.asyncs.set 0 h } else p

/-- Every thread held by a core or a die or on its way in a migration. -/
def State.heldThreads (s : State) : List Parked :=
  s.cores.flatMap (fun e => e.2.arrivals ++ e.2.cache) ++ s.dies.flatMap (fun d => d.2.spill.map Spill.parked)
    ++ s.net.filterMap (fun m => match m.body with
      | .migrate p => some p
      | _ => none)

/-- Changes every thread held by a core or a die or on its way in a migration. -/
def State.onHeld (s : State) (f : Parked → Parked) : State :=
  { s with
    cores := s.cores.mapVal (fun c => { c with arrivals := c.arrivals.map f, cache := c.cache.map f })
    dies := s.dies.mapVal (fun d => { d with spill := d.spill.map (Spill.map f) })
    net := s.net.map (fun m => match m.body with
      | .migrate p => { m with body := .migrate (f p) }
      | _ => m) }

/-- A context whose thread is a participant of an activity. -/
def Ctx.partOf (c : Ctx) (h : Word) : Bool := c.th.actcur == h && c.run != .vacant && c.run != .killed

/-- A thread that waits for a context is a participant of an activity. -/
def Ctx.waiterOf (c : Ctx) (h : Word) : Bool :=
  match c.reserved with
  | some t => t.actcur == h
  | none => false

/-- The event at a context (R343). -/
def Ctx.told (h : Word) (c : Ctx) : Ctx :=
  { c with
    asyncs := if c.partOf h || c.waiterOf h then c.asyncs.set 0 h else c.asyncs
    reserved := c.reserved.map (fun t => if t.actcur == h then { t with actcur := 0 } else t) }

/-- Gives every participant of an activity a pending ACT_ABANDONED; one that is not in a context is detached
at once (R343). -/
def State.tellParticipants (s : State) (h : Word) : State :=
  let gone := (s.heldThreads.filter (fun p => p.th.actcur == h)).length
    + (List.filter (fun (e : Nat × Ctx) => e.2.waiterOf h) s.ctxs).length
  let s := s.onHeld (Parked.told h)
  ({ s with ctxs := s.ctxs.mapVal (Ctx.told h) }).onAct h (fun a => { a with parts := a.parts - gone })

/-- Moves an open activity to abandoning and tells its participants (R163, R340). -/
def State.abandon (s : State) (h : Word) : State :=
  match s.actOf h with
  | some a =>
    if a.st == .opened then (s.onAct h (fun a => { a with st := .abandoning })).tellParticipants h else s
  | none => s

/-- Takes one participant off an activity. -/
def State.leaveAct (s : State) (h : Word) : State :=
  s.onAct h (fun a => { a with parts := a.parts - 1 })

/-- The running thread detaches (R161, its waits already done). -/
def State.detach (s : State) (cid : Nat) : State :=
  let h := (s.ctx cid).th.actcur
  if h = 0 then s
  else (s.leaveAct h).onCtx cid (fun c => { c with th := { c.th with actcur := 0 } })

/-- The thread is lost to its activity: abandoned when the launch sets FLAGS.AOL, else detached (R228). -/
def State.loseAct (s : State) (cid : Nat) : State :=
  let c := s.ctx cid
  let h := c.th.actcur
  if h = 0 then s
  else
    let aol := match s.launch c.th.launch with
      | some l => l.flags.getLsbD 2
      | none => false
    s.detach cid |> fun s => if aol then s.abandon h else s

/-! ### The end of a thread (R151, R154, R187, R191, R228) -/

/-- Removes every watch of a context, at the homes and in its own core (R191). -/
def State.dropWatches (s : State) (cid : Nat) : State :=
  let s := { s with cores := s.cores.mapVal (fun c => { c with watches := c.watches.filter (fun w => w.2 != cid) }) }
  s.onCtx cid (fun c => { c with watching := [], polled := [], ready := false })

/-- The core whose tables hold a reserved word. -/
def State.holderCore (s : State) (k : Nat) : Option Nat :=
  (List.find? (fun (e : Nat × Core) => (e.2.reserved.find k).isSome) s.cores).map (fun e => e.1)

/-- A core sends an orphaning message for each word that a thread holds; the home leaves those of an ATOM (R187, R242). -/
def State.orphanWords (s : State) (core tid : Nat) (ks : List Nat) : State :=
  ks.foldl (fun s k => match s.holderCore k with
    | some h => s.send core h (.orphan k tid)
    | none => s) s

/-- Orphans the reservations of a context's thread. -/
def State.orphanAll (s : State) (cid : Nat) : State :=
  (s.orphanWords (coreOf cid) (s.ctx cid).th.tid (s.ctx cid).th.resv).onCtx cid (fun c => { c with th := { c.th with resv := [] } })

/-- The words that a copy holds reserved are released with their values when it ends before it has added to them (R309). -/
def State.dropGrants (s : State) (core : Nat) (c : CopyCmd) : State :=
  (c.grants.filter (fun g => !g.sent)).foldl (fun s g => s.send core g.home (.req { g.req with op := .release g.value })) s

/-- Cancels the copy, vector and matrix commands of an id on a core, with no further writes (R228). -/
def State.cancelFor (s : State) (core cid : Nat) : State :=
  let s := ((s.core core).copies.filter (fun v => v.cid == cid)).foldl (fun s v => s.dropGrants core v) s
  s.onCore core (fun c =>
    { c with
      vq := c.vq.filter (fun v => v.cid != cid)
      copies := c.copies.filter (fun v => v.cid != cid)
      mat := c.mat.filter (fun v => v.cid != cid)
      staged := c.staged.filter (fun v => v.cid != cid)
      suspended := c.suspended.filter (fun v => v.cid != cid)
      running := match c.running with
        | some r => if r.cmd.cid == cid then none else some r
        | none => none })

/-- Cancels a context's commands. -/
def State.cancelCommands (s : State) (cid : Nat) : State := s.cancelFor (coreOf cid) cid

/-- Operations that a home acknowledges without a value (R177): once sent they are performed whatever becomes of their thread. -/
def ReqOp.isPosted : ReqOp → Bool
  | .store .. | .stf _ | .sete | .setf | .release _ | .binit _ | .arv _ _ true | .flush | .unwatch | .msg => true
  | _ => false

/-- The refused requests of a core once the thread of a context is gone: its posted operations are resent, the others are not
(R228). -/
def leftResends (cid : Nat) (l : List (Req × Resend)) : List (Req × Resend) :=
  (l.filter (fun r => r.1.cid != cid || r.1.op.isPosted)).map (fun r =>
    if r.1.cid == cid then (r.1, { r.2 with parked := false }) else r)

/-- A context without a thread: its ports, its sequence and its pending occupant stay. -/
def Ctx.vacated (c : Ctx) : Ctx :=
  { Ctx.zero with
    seq := c.applyWaves.seq, ports := c.ports, reserved := c.reserved, fbuf := c.fbuf, traps := c.traps }

/-- What a core still holds for a context whose thread is gone: a delegation of it that waits is void (R220), refused posted
operations are sent again and other refused requests are not (R228), and an ATOM goes on to its release (R187). -/
def State.disown (s : State) (cid : Nat) : State :=
  s.onCore (coreOf cid) (fun c =>
    { c with
      delegq := c.delegq.filter (fun d => d.src != some (ctxOf cid))
      presented := match c.presented with
        | some d => if d.src == some (ctxOf cid) then none else some d
        | none => none
      resends := leftResends cid c.resends
      atoms := c.atoms.filter (fun a => a.cid != cid || a.release.isSome) })

/-- The context becomes vacant. -/
def State.vacate (s : State) (cid : Nat) : State := ((s.onCtx cid Ctx.vacated).leaveOrders cid).disown cid

/-! ### Threads that enter contexts (R45, R53, R59) -/

/-- Gives the commands of one id another one (a suspended thread's commands go on under an id of their own). -/
def State.relabel (s : State) (core old new : Nat) : State :=
  s.onCore core (fun c =>
    { c with
      vq := c.vq.map (fun v => if v.cid == old then { v with cid := new } else v)
      copies := c.copies.map (fun v =>
        let v := if v.cid == old then { v with cid := new } else v
        { v with staged := v.staged.map (fun m => if m.cid == old then { m with cid := new } else m) })
      mat := c.mat.map (fun v => if v.cid == old then { v with cid := new } else v)
      staged := c.staged.map (fun v => if v.cid == old then { v with cid := new } else v)
      suspended := c.suspended.map (fun v => if v.cid == old then { v with cid := new } else v)
      running := c.running.map (fun r => if r.cmd.cid == old then { r with cmd := { r.cmd with cid := new } } else r) })

/-- A core remembers that a thread of a launch ran on it (R59). -/
def State.ranOn (s : State) (core launch : Nat) : State :=
  s.onCore core (fun c => if c.ranFor.contains launch then c else { c with ranFor := c.ranFor ++ [launch] })

/-- Puts a thread into a context: at once on a powered core, else when the banks are up (R45). Log 69: the state before that
the trace record of kind 4 reports (R397) is the context's, idle or vacant, whether the thread is new, admitted or resumed. -/
def State.occupy (s : State) (cid : Nat) (t : Thread) (asyncs : Tab Word) : State :=
  let core := coreOf cid
  let s := s.ranOn core t.launch
  if (s.core core).powered then
    let was := (s.ctx cid).run
    let s := s.onCtx cid (fun c => { c.vacated with run := .runnable, th := t, fetchPc := t.pc, asyncs := asyncs, reserved := none })
    s.note cid 0x4 (s.ctx cid).seq t.pc t.wid (match was with | .idle => 1 | _ => 0)
  else
    (s.onCtx cid (fun c => { c with reserved := some t, asyncs := asyncs })).onCore core (fun c => { c with powering := true })

/-- A held thread enters a context (R53, R226); the commands that a suspended thread left running are its own again. -/
def State.letIn (s : State) (cid : Nat) (p : Parked) : State :=
  let s := if p.origin < 65536 then s else s.relabel (coreOf cid) p.origin cid
  (s.occupy cid p.th p.asyncs).onCtx cid (fun c => { c with faults := p.faults, replies := p.replies })

/-- A vacant context of 1 to 15 that nothing is reserved for (R45, R53): of several the lowest-numbered, where R53 names none
(log 70). -/
def State.vacantCtx (s : State) (core : Nat) : Option Nat :=
  ((List.range 15).map (fun k => core * 16 + k + 1)).find? (fun cid =>
    (s.ctx cid).run == .vacant && (s.ctx cid).reserved.isNone)

/-- The arrivals that a die's spill area holds for a core. -/
def State.spilled (s : State) (core : Nat) : List Parked :=
  ((s.die (dieOf core)).spilledFor core).filter (fun p => p.why == .arrival)

/-- The oldest arrival held for a core: queue, then cache, then spill area (R53, R230). -/
def State.oldestArrival (s : State) (core : Nat) : Option Parked :=
  let c := s.core core
  (c.arrivals.head?).or (((c.cache.filter (fun p => p.why == .arrival)).head?).or (s.spilled core).head?)

/-- The thread that was suspended first among some. -/
def firstHeld : List Parked → Option Parked
  | [] => none
  | p :: rest => match firstHeld rest with
    | none => some p
    | some q => if q.origin < p.origin then some q else some p

/-- The threads that a core holds in its cache and in the spill area. -/
def State.heldBy (s : State) (core : Nat) : List Parked := (s.core core).cache ++ (s.die (dieOf core)).spilledFor core

/-- The oldest rescued spawner of a core, wherever the core holds it (R50, R53). -/
def State.oldestRescued (s : State) (core : Nat) : Option Parked :=
  firstHeld ((s.heldBy core).filter (fun p => p.why == .rescued))

/-- Takes a held thread out of wherever a core holds it. -/
def State.unhold (s : State) (core : Nat) (p : Parked) : State :=
  let c := s.core core
  if c.arrivals.contains p then s.setCore core { c with arrivals := c.arrivals.erase p }
  else if c.cache.contains p then s.setCore core { c with cache := c.cache.erase p }
  else s.onDie (dieOf core) (fun d => d.spillOut core p)

/-- Offers the vacant contexts of a core to its oldest arrival, then to a rescued spawner (R53). -/
def State.offer (s : State) (core : Nat) : State :=
  match s.vacantCtx core with
  | none => s
  | some cid =>
    match (s.oldestArrival core).or (s.oldestRescued core) with
    | none => s
    | some p =>
      (s.unhold core p).letIn cid p

/-- The context becomes vacant and is offered (R53). -/
def State.free (s : State) (cid : Nat) : State := (s.vacate cid).offer (coreOf cid)

/-- Steps 1 to 8 of R228: the thread is killed. -/
def State.kill (s : State) (cid : Nat) : State :=
  let s := s.note cid 0x5 (s.ctx cid).seqNow (s.ctx cid).th.pc (BitVec.allOnes 64) 7
  let s := s.orphanAll cid
  let s := s.cancelCommands cid
  let s := s.dropWatches cid
  let s := ((s.loseAct cid).leaveOrders cid).disown cid
  s.onCtx cid (fun c =>
    { c.vacated with
      run := .killed
      th := { Thread.zero with launch := c.th.launch, prio := c.th.prio, slot := c.th.slot, routine := c.th.routine } })

/-- Reaping (R154): the thread, if any, is killed as containment kills it, then the context is vacant. -/
def State.reap (s : State) (cid : Nat) : State :=
  match (s.ctx cid).run with
  | .vacant => s
  | .killed => s.vacate cid
  | _ => (s.kill cid).vacate cid

/-- Queues a supervisor cause for context 0 of a core (R214, R220); the queue has 16 places for these. -/
def State.supervise (s : State) (core : Nat) (cause : Cause) (detail : Word) : State :=
  s.onCore core (fun c =>
    if (c.delegq.filter (fun d => d.src == none)).length < 16 then
      { c with delegq := c.delegq ++ [⟨none, cause, .async, 0, detail⟩] }
    else c)

/-- A routine has failed (R349): its record is FAILED and stays first, its domain freezes with the
failure status, and the home die's supervisor takes COMP_FAILED. -/
def State.routineFails (s : State) (die slot : Nat) (status : Word) : State :=
  match (s.die die).sepia.find slot with
  | none => s
  | some r =>
    let s := s.onDie die (fun d => { d with sepia := d.sepia.set slot { r with failed := true } })
    let dom := hDomain r.handle
    let s := s.onDie (dom % 8) (fun d =>
      let x := d.doms.get dom ⟨1, none, none⟩
      { d with doms := d.doms.set dom { x with running := none, frozen := some (die, slot, status) } })
    s.supervise (hDie r.handle * 512) .compFailed r.handle

/-- A compensating routine's thread fails with a status: it is reaped, its domain freezes (R349), and its context is offered
(R53). -/
def State.failRoutine (s : State) (cid : Nat) (status : Word) : State :=
  match (s.ctx cid).th.routine with
  | none => s
  | some (die, slot) => ((s.reap cid).routineFails die slot status).offer (coreOf cid)

/-! ### Causes -/

/-- Cause codes (R214). -/
def Cause.code : Cause → BitVec 6
  | .illegal => 0x01 | .extAbsent => 0x02 | .privilege => 0x03 | .misaligned => 0x04
  | .badAddress => 0x05 | .badPort => 0x06 | .break_ => 0x07 | .trap => 0x08 | .signature => 0x09
  | .reconstruct => 0x0A | .lookahead => 0x0B | .sepiaFull => 0x0C | .barrierOverrun => 0x0D
  | .orphaned => 0x0E | .pageFault => 0x0F | .accessFault => 0x10 | .engineFault => 0x11
  | .actAbandoned => 0x18 | .zeroLookahead => 0x19 | .matrixThreshold => 0x1A
  | .compFailed => 0x20 | .dirOverflow => 0x21 | .stackGrowth => 0x22 | .contained => 0x23
  | .traceHalted => 0x24

/-- CLASS codes (R216). -/
def Class.code : Class → Nat
  | .precise => 0 | .reply => 1 | .late => 2 | .async => 3

/-- The CAUSE register (R216). -/
def causeWord (depc : BitVec 46) (src : Nat) (dlg : Bool) (nent : Nat) (cls : Class) (c : Cause) : Word :=
  BitVec.ofNat 64 (depc.toNat * 2 ^ 18 + src * 2 ^ 14 + (if dlg then 2 ^ 13 else 0) + nent * 2 ^ 8
    + cls.code * 2 ^ 6 + c.code.toNat)

/-- CAUSE with NENT raised by n (R221). -/
def causeAdd (c : Word) (n : Nat) : Word := c + BitVec.ofNat 64 (n * 2 ^ 8)

/-! ### Scoreboard entries (R218, R221) -/

/-- Faulted operations in sequence order. -/
def insertFault (f : Faulted) : List Faulted → List Faulted
  | [] => [f]
  | g :: rest => if seqGt g.seq f.seq then f :: g :: rest else g :: insertFault f rest

/-- The empty scoreboard entries, lowest first. -/
def Thread.freeScores (t : Thread) : List Nat := (List.range 16).filter (fun e => (t.score.find e).isNone)

/-- Writes faulted operations into empty entries, as many as find one; the rest stay pending. -/
def fillScores : List Nat → List Faulted → Tab Score → Tab Score × List Faulted × Nat
  | [], fs, t => (t, fs, 0)
  | _, [], t => (t, [], 0)
  | e :: es, f :: fs, t =>
    let (t', rest, n) := fillScores es fs (t.set e ⟨f, false⟩)
    (t', rest, n + 1)

/-- The scoreboard takes the reported faults of its context. -/
def Ctx.takeFaults (c : Ctx) : Ctx × Nat :=
  let (t, rest, n) := fillScores c.th.freeScores c.faults c.th.score
  ({ c with th := { c.th with score := t }, faults := rest }, n)

/-- The cause of a faulted operation. -/
def Faulted.cause (f : Faulted) : Cause :=
  if f.fc = 0 then .pageFault else if f.fc = 1 then .accessFault else .engineFault

/-- Every entry is settled. -/
def Thread.settled (t : Thread) : Bool := List.all t.score (fun (e : Nat × Score) => e.2.settled)

/-! ### Taking an exception (R219 to R222) -/

/-- Trap entry of a context (R219): the kill wave, EPC, CAUSE, DETAIL, STATUS.IN, and the handler. -/
def State.enter (s : State) (cid : Nat) (cause detail : Word) : State :=
  let c := s.ctx cid
  let pc := c.th.pc
  let hand := c.th.tvec.zeroExtend 48 <<< 2
  let s := s.note cid 0x2 c.seqNow pc cause detail
  let s := (s.wave cid (c.seqNow - 1) hand).leaveOrders cid
  s.onCtx cid (fun c =>
    { c with
      run := .runnable
      th := { c.th with
        epc := pc.extractLsb' 2 46
        cause := cause
        detail := detail
        inTrap := true
        pc := hand
        sig := { c.th.sig with isOpen := false } } })

/-- Delegation (R220): the registers of R219 but STATUS.IN, the wave, a place in the queue, parked. -/
def State.delegate (s : State) (cid : Nat) (c : Cause) (cls : Class) (detail : Word) (nent : Nat) : State :=
  let x := s.ctx cid
  let pc := x.th.pc
  let word := causeWord 0 0 false nent cls c
  let s := s.note cid 0x2 x.seqNow pc word detail
  let s := (s.wave cid (x.seqNow - 1) pc).leaveOrders cid
  let s := s.onCtx cid (fun x =>
    { x with
      run := .parked .delegation
      th := { x.th with
        epc := pc.extractLsb' 2 46
        cause := word
        detail := detail
        sig := { x.th.sig with isOpen := false } } })
  s.onCore (coreOf cid) (fun k =>
    { k with delegq := k.delegq ++ [⟨some (ctxOf cid), c, cls, nent, detail⟩] })

/-- A firmware fault (R222): context 0 parks and the core reports it to the management core. -/
def State.firmwareFaults (s : State) (cid : Nat) (c : Cause) : State :=
  let x := s.ctx cid
  (s.wave cid (x.seqNow - 1) x.th.pc).onCtx cid (fun x => { x with run := .parked (.restart c.code.toNat) })

/-- Whether a context takes a cause in its own handler. -/
def State.entersOwn (s : State) (cid : Nat) (c : Cause) : Bool :=
  let t := (s.ctx cid).th
  t.tvec != 0 && !t.inTrap
    && (ctxOf cid == 0 || !(bit (s.core (coreOf cid)).deleg c.code.toNat))

/-- TAKES AN EXCEPTION: delivers a cause to a context's handler, to context 0 of its core, or, for
context 0 itself when it cannot take one, as a firmware fault; a compensating routine without a handler
fails (R219, R220, R222, R349). `nent` is the number of scoreboard entries just written. -/
def State.deliver (s : State) (cid : Nat) (c : Cause) (cls : Class) (detail : Word) (nent : Nat) : State :=
  let t := (s.ctx cid).th
  if t.routine.isSome && t.tvec == 0 && cls != .async then
    s.failRoutine cid (BitVec.ofNat 64 (2 ^ 63 + c.code.toNat))
  else if s.entersOwn cid c then s.enter cid (causeWord 0 0 false nent cls c) detail
  else if ctxOf cid == 0 then s.firmwareFaults cid c
  else s.delegate cid c cls detail nent

/-- The model's count of the precise causes raised goes on, with the code in its low six bits. -/
def State.counts (s : State) (c : Cause) : State :=
  s.withMe (fun x => { x with traps := (x.traps / 64 + 1) * 64 + c.code.toNat })

/-- A precise cause of the packet being performed (R215 item 3): it is counted and delivered. -/
def State.trap (s : State) (c : Cause) (detail : Word) : State := (s.counts c).deliver s.cur c .precise detail 0

/-- The outcome of an instruction that raises a precise cause. -/
def State.raise (s : State) (c : Cause) (detail : Word) : Out State := .next (s.trap c detail)

/-- PRIVILEGE at an instruction (R116): DETAIL is its word. -/
def State.refusePriv (s : State) (i : Instr) : Out State := s.raise .privilege (wordOf i)

/-- Takes the pending late faults of a context (R221). -/
def State.takeLateFaults (s : State) (cid : Nat) : State :=
  match (s.ctx cid).faults with
  | [] => s
  | f :: _ =>
    let (c, n) := (s.ctx cid).takeFaults
    if ctxOf cid == 0 && c.th.tvec == 0 then s.firmwareFaults cid f.cause
    else (s.setCtx cid c).deliver cid f.cause .late f.addr n

/-- A fault reported for a retired operation (R221): pending, and while the context is in its handler
written at once into a free entry. -/
def State.reportFault (s : State) (cid : Nat) (f : Faulted) : State :=
  s.onCtx cid (fun c =>
    let c := { c with faults := insertFault f c.faults }
    if c.th.inTrap then
      let (c, n) := c.takeFaults
      { c with th := { c.th with cause := causeAdd c.th.cause n } }
    else c)

/-- RETURN FROM AN EXCEPTION (R171, R220): STATUS.IN falls and the scoreboard clears (the TRET itself then
goes on at EPC); context 0 then releases the context whose delegation it handled. -/
def State.tret (s : State) : State :=
  let t := s.th
  let npc : Addr48 := t.epc.zeroExtend 48 <<< 2
  let s := s.note s.cur 0x3 s.seqNow t.pc (ofAddr npc) 0
  let s := s.withTh (fun t => { t with inTrap := false, score := [] })
  if ctxOf s.cur == 0 && bit t.cause 13 then
    match (s.core s.here).presented with
    | none => s
    | some d =>
      let s := s.onCore s.here (fun c => { c with presented := none })
      match d.src with
      | none => s
      | some n =>
        let cid := s.here * 16 + n
        s.onCtx cid (fun c =>
          if c.run == .parked .delegation then
            let back : Addr48 := c.th.epc.zeroExtend 48 <<< 2
            let back := if d.cause == .trap || d.cause == .break_ then back + 4 else back
            { c.applyWaves with run := .runnable, fetchPc := back, th := { c.th with pc := back, score := [] } }
          else c)
  else s

/-! ### Finishing a packet -/

/-- A packet of an instruction that was not injected. -/
def freshPacket (i : Instr) (q : BitVec 8) (pc : Addr48) : Packet :=
  ⟨q, pc, (encode i).getD 0, .none, .none, .none, none, 0, .none, none, 0, [], false⟩

/-- DST of a performed packet: late when its request left late, else done with the value it emitted (R67, R74, R75). -/
def Ctx.performed (c : Ctx) (p : Packet) : Packet :=
  if p.dst == .pending then
    if c.lates.contains p.seq then { p with dst := .late }
    else
      match c.landing.find? (fun e => e.seq == p.seq) with
      | some ⟨_, _, .ordinary v, _⟩ => { p with dst := .done, value := v }
      | _ => { p with dst := .done }
  else p

/-- The packet that stands for a performed instruction (R67), with the profiling counts that it owes (R84). -/
def Ctx.packetOf (c : Ctx) (i : Instr) : Packet :=
  { c.performed ((c.injected.head?).getD (freshPacket i c.seq c.th.pc)) with counts := c.owed }

/-- The packet behind the oldest was injected, or is to be, from another address (R80, R82). -/
def Ctx.mispredicts (c : Ctx) (npc : Addr48) : Bool :=
  match c.injected with
  | [] => false
  | [_] => c.fetchPc != npc
  | _ :: q :: _ => q.pc != npc

/-- The packet has been performed: the next instruction is at npc, the packet climbs on to retire, and a
younger packet injected from another address is deleted by a kill wave (R80, R82). -/
def Ctx.advance (c : Ctx) (i : Instr) (npc : Addr48) : Ctx :=
  let p := c.packetOf i
  let rest := c.injected.tail
  let c1 : Ctx :=
    { c with
      run := if c.run == .runnable || (match c.run with | .waiting _ => true | _ => false) then .runnable else c.run
      retiring := c.retiring ++ [p]
      injected := rest
      bay := none
      owed := []
      answered := false
      carried := none
      th := { c.th with pc := npc } }
  match c.injected with
  | [] => { c1 with seq := c.seq + 1, fetchPc := npc }
  | _ :: _ =>
    if c.mispredicts npc then c1.launchWave ⟨p.seq, npc⟩ else c1

/-- The accumulators of a core take the counts of a packet: an increment and a sum each, saturating (R84, R402). -/
def Core.profMerge (c : Core) (counts : Tab (Nat × Nat)) : Core :=
  counts.foldl (fun c e =>
    let x := c.prof.get e.1 (0, 0)
    { c with prof := c.prof.set e.1 (BitVec.ofNat 24 (min (2 ^ 24 - 1) (x.1.toNat + e.2.1)),
                                      BitVec.ofNat 40 (min (2 ^ 40 - 1) (x.2.toNat + e.2.2))) }) c

/-- The oldest packet at stage 11 of a context retires (R77, R84). -/
def State.retire (s : State) (cid : Nat) : State :=
  match (s.ctx cid).retiring with
  | [] => s
  | p :: _ => (s.onCtx cid Ctx.retireOne).onCore (coreOf cid) (fun c => c.profMerge p.counts)

/-- Every packet of a context that has been performed retires. -/
def State.retireAll (s : State) (cid : Nat) : State := (s.ctx cid).retiring.foldl (fun s _ => s.retire cid) s

/-- The stage at which an instruction turns fetch to another address: NEST and NEXT at stage 6, branches and jumps at stage 2, and
the others, which leave their place in the thread at a boundary, at stage 10 (R66, R80). -/
def turnStage : Instr → Nat
  | .nest .. | .next .. => 6
  | .beq .. | .bne .. | .blt .. | .bge .. | .bltn .. | .bgen .. | .j .. | .jal .. | .jr .. | .jalr .. => 2
  | _ => 10

/-- Finishes the packet of the running context and goes on at npc; a taken branch, a jump and a redirect are traced (R397). -/
def State.advance (s : State) (i : Instr) (npc : Addr48) (taken : Bool := false) : State :=
  let pc := s.th.pc
  let wrong := s.me.mispredicts npc
  let s := if taken || npc != nextPc pc || wrong then s.note s.cur 0x1 s.seqNow pc (ofAddr npc) 0 else s
  (if wrong then s.noteWave s.cur s.seqNow (turnStage i) else s).withMe (fun c => c.advance i npc)

end Sys2Proof.Machine
end

