-- ==== Sys2Proof/Machine/Slate.lean ====
section
/-! DEFINITION. The slate groups of a core's scratchpad (R251 to R257): banks, rows and parity, the errors that their check bits
show, retirement, and the reads and writes of words that go through them. -/

namespace Sys2Proof.Machine

open Sys2Proof

/-! ### Places (R251) -/

/-- A group of a core; normal unless something happened to it. -/
def groupOf (c : Core) (g : Nat) : Group := c.groups.get g ⟨.normal, 0, [], false, [], []⟩

/-- Changes a group of a core. -/
def Core.onGroup (c : Core) (g : Nat) (f : Group → Group) : Core := { c with groups := c.groups.set g (f (groupOf c g)) }

/-- The bank, the row and the group of scratchpad word w. -/
def bankOf (w : Nat) : Nat := w % 16
def rowOf (w : Nat) : Nat := w / 16
def groupNo (w : Nat) : Nat := w % 16 / 4

/-- The number by which a core counts the errors of the parity bank of a group. -/
def parityBank (g : Nat) : Nat := 16 + g

/-- The four words of a word's row in its group. -/
def rowWords (w : Nat) : List Nat := (List.range 4).map (fun k => w / 16 * 16 + groupNo w * 4 + k)

/-- A row with a queued parity update is stale (R253). -/
def Group.stale (g : Group) (row : Nat) : Bool := g.queue.any (fun e => e.1 == row)

/-! ### Failures of banks (R254) -/

/-- A saturating 8-bit count. -/
def sat8 (n : BitVec 8) : BitVec 8 := if n = 0xFF then n else n + 1

/-- A data bank of a group has failed: that of a normal group is retired once the queue has drained; a further failure loses
the group. -/
def failData (g : Group) (b : Nat) : Group :=
  match g.st with
  | .normal =>
    if g.draining then (if g.rbank = b then g else { g with st := .lost, queue := [], draining := false })
    else if g.queue.isEmpty then { g with st := .degraded, rbank := b }
    else { g with draining := true, rbank := b }
  | .degraded => if g.rbank = b then g else { g with st := .lost }
  | .unprotected => { g with st := .lost }
  | .lost => g

/-- The parity bank of a group has failed: beside a data bank that is being retired or is retired, the group is lost. -/
def failParity (g : Group) : Group :=
  match g.st with
  | .normal => { g with st := if g.draining then .lost else .unprotected, queue := [], draining := false }
  | .degraded => { g with st := .lost }
  | _ => g

/-- A bank of a core fails: a data bank 0 to 15, or `parityBank g`. -/
def Core.failBank (c : Core) (b : Nat) : Core :=
  let c := if b < 16 then c.onGroup (b / 4) (fun g => failData g (b % 4)) else c.onGroup (b - 16) failParity
  { c with failedBanks := if c.failedBanks.contains b then c.failedBanks else c.failedBanks ++ [b] }

/-- One more uncorrectable word has been found (R256). -/
def Core.found (c : Core) : Core := { c with uecnt := sat8 c.uecnt }

/-- An uncorrectable word is found and counted toward its bank's retirement; at THRESH the bank fails (R253, R254). -/
def Core.countBank (c : Core) (b : Nat) : Core :=
  let n := c.bankErrs.get b 0 + 1
  let c := { c.found with bankErrs := c.bankErrs.set b n }
  if c.thresh != 0 && decide (c.thresh.toNat ≤ n) then c.failBank b else c

/-- At the power-up of the banks each bank that had failed keeps its error count less one (R254). -/
def Core.freshCounts (c : Core) : Core :=
  { c with
    bankErrs := c.failedBanks.foldl (fun t b => t.set b (t.get b 0 - 1)) c.bankErrs
    failedBanks := [] }

/-! ### Reads (R251, R253, R254) -/

/-- The correctable words among some are corrected and written back. -/
def Core.corrected (c : Core) : List Nat → Core
  | [] => c
  | w :: rest =>
    let c' := if c.softWords.contains w then
        { c with softWords := c.softWords.filter (fun x => x != w), cecnt := sat8 c.cecnt }
      else c
    Core.corrected c' rest

/-- A correctable word of a parity row is corrected. -/
def Core.correctedRow (c : Core) (g row : Nat) : Core :=
  if (groupOf c g).softRows.contains row then
    { c.onGroup g (fun x => { x with softRows := x.softRows.filter (fun y => y != row) }) with cecnt := sat8 c.cecnt }
  else c

/-- The word can be rebuilt from its row's other words and the parity row: none of them holds an uncorrectable error. -/
def Core.rebuilds (c : Core) (w : Nat) : Bool :=
  !((rowWords w).any (fun x => x != w && c.badWords.contains x)) && !((groupOf c (groupNo w)).badRows.contains (rowOf w))

/-- The core after a word has been rebuilt: its correctable sources are corrected. -/
def Core.rebuilt (c : Core) (w : Nat) : Core :=
  (c.corrected ((rowWords w).filter (fun x => x != w))).correctedRow (groupNo w) (rowOf w)

/-- A read of one word by its slate group: the core with its counts and corrections, and whether the value can be had. An
uncorrectable word is repaired in a normal group on a row that is not stale. -/
def readWord (c : Core) (w : Nat) : Core × Bool :=
  let g := groupOf c (groupNo w)
  match g.st with
  | .lost => (c, false)
  | st =>
    if st == .degraded && g.rbank == bankOf w % 4 then
      if c.rebuilds w then (c.rebuilt w, true) else (c.found, false)
    else if c.badWords.contains w then
      if st == .normal && !(g.stale (rowOf w)) && c.rebuilds w then
        (({ c.rebuilt w with badWords := c.badWords.filter (fun x => x != w) }).countBank (bankOf w), true)
      else (c.found, false)
    else (c.corrected [w], true)

/-- The words that n bytes from an offset touch. -/
def wordsIn (off n : Nat) : List Nat := (List.range ((off % 8 + n + 7) / 8)).map (fun k => off / 8 + k)

/-- Reads words in order. -/
def readWords (c : Core) : List Nat → Core × Bool
  | [] => (c, true)
  | w :: rest =>
    let p := readWord c w
    if p.2 then readWords p.1 rest else p

/-- A scratchpad read of n bytes: the core with its corrections, and whether the bytes can be had. -/
def State.padRead (s : State) (core off n : Nat) : State × Bool :=
  let p := readWords (s.core core) (wordsIn off n)
  (s.setCore core p.1, p.2)

/-! ### Writes (R253, R254) -/

/-- Applies the oldest parity update of a group; a retirement that waited for the queue then acts. -/
def applyParity (g : Group) : Group :=
  let q := g.queue.tail
  let g := match g.queue with
    | e :: _ => { g with softRows := g.softRows.filter (fun y => y != e.1) }
    | [] => g
  if g.draining && q.isEmpty then { g with queue := [], draining := false, st := .degraded } else { g with queue := q }

/-- Queues the parity update of a changed word in a normal group; at 16 the oldest is applied first, and in a group whose bank
is being retired the queue drains first. A retired bank's word is written as parity, which is sound from then on. -/
def queueParity (c : Core) (w : Nat) (x : Word) (fe : Bool) : Core :=
  let g := groupOf c (groupNo w)
  match g.st with
  | .normal =>
    let g := if g.draining then { g with queue := [], draining := false, st := .degraded }
      else
        let g := if g.queue.length < Config.parityMax then g else applyParity g
        { g with queue := g.queue ++ [(rowOf w, x, fe)] }
    { c with groups := c.groups.set (groupNo w) g }
  | .degraded =>
    if g.rbank == bankOf w % 4 && !fe then
      c.onGroup (groupNo w) (fun g =>
        { g with badRows := g.badRows.filter (fun y => y != rowOf w), softRows := g.softRows.filter (fun y => y != rowOf w) })
    else c
  | _ => c

/-- A write of whole words makes them sound and queues their parity; a partly written word is read first. -/
def writeWords (m m' : Memory) (base : Nat) (off n : Nat) (c : Core) : List Nat → Option Core
  | [] => some c
  | w :: rest =>
    if (groupOf c (groupNo w)).st == .lost then none
    else
      let whole := decide (off ≤ w * 8) && decide (w * 8 + 8 ≤ off + n)
      let p := if whole then
          ({ c with badWords := c.badWords.filter (fun x => x != w), softWords := c.softWords.filter (fun x => x != w) }, true)
        else readWord c w
      if p.2 then
        let d := m.word (base + w * 8) ^^^ m'.word (base + w * 8)
        writeWords m m' base off n (queueParity p.1 w d false) rest
      else none

/-- Writes bytes at a scratchpad key through the slate groups; `none` when a group cannot take them. -/
def State.padWrite (s : State) (k : Nat) (bs : List Byte) : Option State :=
  let m := s.mem.put k bs
  (writeWords s.mem m (padAt (padCore k) 0) (padOff k) bs.length (s.core (padCore k)) (wordsIn (padOff k) bs.length)).map
    (fun c => { s with mem := m }.setCore (padCore k) c)

/-! ### Scrubbing (R257) -/

/-- The check of one word by the scrubber: a correctable one is corrected, an uncorrectable one counted and left. A word of a
stale row is left for the next pass. -/
def scrubWord (c : Core) (w : Nat) : Core :=
  if (groupOf c (groupNo w)).stale (rowOf w) then c
  else if c.badWords.contains w then c.countBank (bankOf w)
  else c.corrected [w]

/-- The check of a parity row by the scrubber: one whose check fails is rewritten from its data row. -/
def scrubRow (c : Core) (g row : Nat) : Core :=
  if (groupOf c g).stale row then c
  else if (groupOf c g).badRows.contains row then
    (c.onGroup g (fun x => { x with badRows := x.badRows.filter (fun y => y != row) })).countBank (parityBank g)
  else c.correctedRow g row

end Sys2Proof.Machine
end

