-- ==== Sys2Proof/Machine/Ring.lean ====
section
/-! DEFINITION. The ib store of a core: 64 hardware entries and the overflow ring in its scratchpad (R244,
R245). Offsets W and O count from the ring's start; `ringUsed` is the span from O to W. -/

namespace Sys2Proof.Machine

open Sys2Proof

/-- The ring of a core that can be used now: its first key and size (R58, R244). -/
def State.ringOf (s : State) (core : Nat) : Option (Nat × Nat) :=
  if (s.core core).powered then (s.core core).ring.map (fun r => (padAt core r.1, r.2)) else none

/-- STATE and CTX of a ring entry's first word (R245). -/
def entryState (w : Word) : Nat := bits w 6 2
def entryCtx (w : Word) : Nat := bits w 0 4

/-- Bytes that the entry at an offset takes: a pad runs to the ring's end. -/
def entrySpan (w : Word) (size off : Nat) : Nat := if entryState w = 3 then size - off else 24

/-- The offsets of the pending entries that a test accepts, from an offset over a span, oldest first. -/
def pendings (m : Memory) (base size : Nat) (ok : Nat → Bool) : Nat → Nat → Nat → List Nat
  | 0, _, _ => []
  | fuel + 1, off, left =>
    if left = 0 then []
    else
      let w := m.word (base + off)
      let n := entrySpan w size off
      let rest := pendings m base size ok fuel ((off + n) % size) (left - n)
      if entryState w = 1 && ok (entryCtx w) then off :: rest else rest

/-- The pending ring entries of a core that a test on their context accepts, oldest first. -/
def State.ringPending (s : State) (core : Nat) (ok : Nat → Bool) : List Nat :=
  match s.ringOf core with
  | none => []
  | some (base, size) =>
    let c := s.core core
    pendings s.mem base size ok (c.ringUsed / 8 + 1) c.ringO c.ringUsed

/-- Advances O past consumed entries and pads (R245). -/
def reclaimFrom (m : Memory) (base size : Nat) : Nat → Nat → Nat → Nat × Nat
  | 0, off, left => (off, left)
  | fuel + 1, off, left =>
    if left = 0 then (off, left)
    else
      let w := m.word (base + off)
      if entryState w = 2 || entryState w = 3 then
        let n := entrySpan w size off
        reclaimFrom m base size fuel ((off + n) % size) (left - n)
      else (off, left)

/-- The message of a ring entry, which is marked consumed; O then moves on (R245). The mark is a scratchpad write (R253); where
the slate group is lost it is not made, and the entry is not taken. -/
def State.takeRing (s : State) (core off : Nat) : Option (Ib × State) :=
  match s.ringOf core with
  | none => none
  | some (base, size) =>
    let w := s.mem.word (base + off)
    let m : Ib := ⟨entryCtx w, ⟨s.mem.word (base + off + 8), s.mem.word (base + off + 16)⟩⟩
    (s.padWrite (base + off) (leBytes 8 (2 * 64 + entryCtx w))).map (fun s =>
      let c := s.core core
      let p := reclaimFrom s.mem base size (c.ringUsed / 8 + 1) c.ringO c.ringUsed
      (m, s.setCore core { c with ringO := p.1, ringUsed := p.2 }))

/-- The messages that a context can pop now, in hardware entries and in the ring. -/
def State.ibCount (s : State) (cid : Nat) : Nat :=
  ((s.core (coreOf cid)).ib.filter (fun m => m.ctx == ctxOf cid)).length
    + (s.ringPending (coreOf cid) (fun c => c == ctxOf cid)).length

/-- Removes the first ib message of a context from the hardware entries. -/
def takeIb (ctx : Nat) : List Ib → Option Rec × List Ib
  | [] => (none, [])
  | m :: rest =>
    if m.ctx == ctx then (some m.msg, rest)
    else
      let (r, l) := takeIb ctx rest
      (r, m :: l)

/-- A free hardware entry takes the oldest pending ring entry (R245). -/
def State.ibRefill (s : State) (core : Nat) : State :=
  if (s.core core).ib.length < Config.inboxMax then
    match s.ringPending core (fun _ => true) with
    | [] => s
    | off :: _ =>
      match s.takeRing core off with
      | none => s
      | some (m, s) => s.onCore core (fun c => { c with ib := c.ib ++ [m] })
  else s

/-- Pops the oldest ib message of a context across the hardware entries and the ring (R245). -/
def State.ibPop (s : State) (cid : Nat) : Option (Rec × State) :=
  let core := coreOf cid
  match takeIb (ctxOf cid) (s.core core).ib with
  | (some m, rest) => some (m, s.onCore core (fun c => { c with ib := rest }))
  | (none, _) =>
    match s.ringPending core (fun c => c == ctxOf cid) with
    | [] => none
    | off :: _ => (s.takeRing core off).map (fun p => (p.1.msg, p.2))

/-- Writes a message at W (STATE pending), a pad before it when it does not fit before the ring's end; none where a slate group
cannot take the words (R253, R254). -/
def State.ringWrite (s : State) (core base size : Nat) (m : Ib) : Option State :=
  let c := s.core core
  let left := size - c.ringW
  let w := if left < 24 then 0 else c.ringW
  let used := if left < 24 then c.ringUsed + left else c.ringUsed
  let bytes := leBytes 8 (64 + m.ctx) ++ leBytes 8 m.msg.hdr.toNat ++ leBytes 8 m.msg.data.toNat
  ((if left < 24 then s.padWrite (base + c.ringW) (leBytes left (3 * 64)) else some s).bind (fun s => s.padWrite (base + w) bytes)).map
    (fun s => s.onCore core (fun c => { c with ringW := (w + 24) % size, ringUsed := used + 24 }))

/-- An MTS of INBASE or INSIZE waits for the ring to become empty, so that it takes no new message (R244). -/
def State.ringClosing (s : State) (core : Nat) : Bool :=
  match (s.ctx (core * 16)).run with
  | .waiting .ring | .parked .ring => true
  | _ => false

/-- accept(m) of R245: a hardware entry when the ring is empty, else the ring, else refused. -/
def State.ibAccept (s : State) (core : Nat) (m : Ib) : Option State :=
  let c := s.core core
  if c.ringUsed = 0 && decide (c.ib.length < Config.inboxMax) then
    some (s.setCore core { c with ib := c.ib ++ [m] })
  else
    match (if s.ringClosing core then none else s.ringOf core) with
    | none => none
    | some (base, size) =>
      let left := size - c.ringW
      let need := if 24 ≤ left then 24 else left + 24
      if size - c.ringUsed < need then none else s.ringWrite core base size m

end Sys2Proof.Machine
end

