-- ==== Sys2Proof/Machine/Operands.lean ====
section
/-! DEFINITION. Operand forms: which slots an instruction fills (R114), reading registers, lanes and ports
(R95, R96, R121, R202, R206), writing destinations, and completing an instruction under the signature
checker (R83, R87 to R89). -/

namespace Sys2Proof.Machine

open Sys2Proof

/-! ### Slots (R114) -/

/-- The registers that fill slots a, b and c, and the destination. -/
structure Slots where
  a : Option Reg
  b : Option Reg
  c : Option Reg
  d : Option Reg
  deriving DecidableEq, Repr

/-- The register after a general register (FCAS, R103). -/
def regSucc : Reg → Reg
  | .g n => .g (n + 1)
  | r => r

/-- The slots of an instruction word; the device's own steps and the words without register fields have none. -/
def slotsOf : Instr → Slots
  | .add d a b => ⟨some a, some b, none, some d⟩
  | .addw d a b => ⟨some a, some b, none, some d⟩
  | .sub d a b => ⟨some a, some b, none, some d⟩
  | .subw d a b => ⟨some a, some b, none, some d⟩
  | .andR d a b => ⟨some a, some b, none, some d⟩
  | .orR d a b => ⟨some a, some b, none, some d⟩
  | .xorR d a b => ⟨some a, some b, none, some d⟩
  | .andn d a b => ⟨some a, some b, none, some d⟩
  | .orn d a b => ⟨some a, some b, none, some d⟩
  | .shl d a b => ⟨some a, some b, none, some d⟩
  | .shlw d a b => ⟨some a, some b, none, some d⟩
  | .shr d a b => ⟨some a, some b, none, some d⟩
  | .shrw d a b => ⟨some a, some b, none, some d⟩
  | .sha d a b => ⟨some a, some b, none, some d⟩
  | .shaw d a b => ⟨some a, some b, none, some d⟩
  | .rotl d a b => ⟨some a, some b, none, some d⟩
  | .rotlw d a b => ⟨some a, some b, none, some d⟩
  | .shli d a _ _ => ⟨some a, none, none, some d⟩
  | .shliw d a _ => ⟨some a, none, none, some d⟩
  | .shri d a _ _ => ⟨some a, none, none, some d⟩
  | .shriw d a _ => ⟨some a, none, none, some d⟩
  | .shai d a _ _ => ⟨some a, none, none, some d⟩
  | .shaiw d a _ => ⟨some a, none, none, some d⟩
  | .slt d a b => ⟨some a, some b, none, some d⟩
  | .sltn d a b => ⟨some a, some b, none, some d⟩
  | .seq d a b => ⟨some a, some b, none, some d⟩
  | .sne d a b => ⟨some a, some b, none, some d⟩
  | .min d a b => ⟨some a, some b, none, some d⟩
  | .max d a b => ⟨some a, some b, none, some d⟩
  | .minn d a b => ⟨some a, some b, none, some d⟩
  | .maxn d a b => ⟨some a, some b, none, some d⟩
  | .sel d a b => ⟨some a, some b, some d, some d⟩
  | .spa d a b => ⟨some a, some b, none, some d⟩
  | .spx d a => ⟨some a, none, none, some d⟩
  | .home d a => ⟨some a, none, none, some d⟩
  | .mul d a b => ⟨some a, some b, none, some d⟩
  | .mulw d a b => ⟨some a, some b, none, some d⟩
  | .mulh d a b => ⟨some a, some b, none, some d⟩
  | .mulhn d a b => ⟨some a, some b, none, some d⟩
  | .div d a b => ⟨some a, some b, none, some d⟩
  | .divw d a b => ⟨some a, some b, none, some d⟩
  | .divn d a b => ⟨some a, some b, none, some d⟩
  | .divnw d a b => ⟨some a, some b, none, some d⟩
  | .rem d a b => ⟨some a, some b, none, some d⟩
  | .remw d a b => ⟨some a, some b, none, some d⟩
  | .remn d a b => ⟨some a, some b, none, some d⟩
  | .remnw d a b => ⟨some a, some b, none, some d⟩
  | .clz d a => ⟨some a, none, none, some d⟩
  | .clzw d a => ⟨some a, none, none, some d⟩
  | .ctz d a => ⟨some a, none, none, some d⟩
  | .ctzw d a => ⟨some a, none, none, some d⟩
  | .pop d a => ⟨some a, none, none, some d⟩
  | .popw d a => ⟨some a, none, none, some d⟩
  | .brev d a => ⟨some a, none, none, some d⟩
  | .brevw d a => ⟨some a, none, none, some d⟩
  | .bswap d a => ⟨some a, none, none, some d⟩
  | .bswapw d a => ⟨some a, none, none, some d⟩
  | .addi d a _ => ⟨some a, none, none, some d⟩
  | .andi d a _ => ⟨some a, none, none, some d⟩
  | .ori d a _ => ⟨some a, none, none, some d⟩
  | .xori d a _ => ⟨some a, none, none, some d⟩
  | .slti d a _ => ⟨some a, none, none, some d⟩
  | .sltni d a _ => ⟨some a, none, none, some d⟩
  | .li d _ => ⟨none, none, none, some d⟩
  | .lih d _ => ⟨none, none, none, some d⟩
  | .muli d a _ => ⟨some a, none, none, some d⟩
  | .addiw d a _ => ⟨some a, none, none, some d⟩
  | .ext d a _ _ => ⟨some a, none, none, some d⟩
  | .extx d a _ _ => ⟨some a, none, none, some d⟩
  | .ins d a _ _ => ⟨some a, none, some d, some d⟩
  | .beq a b _ => ⟨some a, some b, none, none⟩
  | .bne a b _ => ⟨some a, some b, none, none⟩
  | .blt a b _ => ⟨some a, some b, none, none⟩
  | .bge a b _ => ⟨some a, some b, none, none⟩
  | .bltn a b _ => ⟨some a, some b, none, none⟩
  | .bgen a b _ => ⟨some a, some b, none, none⟩
  | .jal _ => ⟨none, none, none, some (.g 14)⟩
  | .jr a => ⟨some a, none, none, none⟩
  | .jalr d a => ⟨some a, none, none, some d⟩
  | .nest a _ => ⟨some a, none, none, none⟩
  | .ld t a _ _ _ _ => ⟨some a, none, none, some t⟩
  | .ldx t a _ _ _ _ => ⟨some a, none, none, some t⟩
  | .st t a _ _ _ _ => ⟨some a, some t, none, none⟩
  | .ldf t a _ _ _ => ⟨some a, none, none, some t⟩
  | .stf t a _ _ _ => ⟨some a, some t, none, none⟩
  | .ldff t a _ _ _ => ⟨some a, none, none, some t⟩
  | .faa t a _ _ _ => ⟨some a, some t, none, some t⟩
  | .fxch t a _ _ _ => ⟨some a, some t, none, some t⟩
  | .fcas t a _ _ _ => ⟨some a, some t, some (regSucc t), some t⟩
  | .fmin t a _ _ _ => ⟨some a, some t, none, some t⟩
  | .fmax t a _ _ _ => ⟨some a, some t, none, some t⟩
  | .fand t a _ _ _ => ⟨some a, some t, none, some t⟩
  | .forA t a _ _ _ => ⟨some a, some t, none, some t⟩
  | .fxor t a _ _ _ => ⟨some a, some t, none, some t⟩
  | .watch a => ⟨some a, none, none, none⟩
  | .unwatch a => ⟨some a, none, none, none⟩
  | .waita d a => ⟨some a, some d, none, none⟩
  | .pref a => ⟨some a, none, none, none⟩
  | .migr d a => ⟨some a, some d, none, none⟩
  | .sete a => ⟨some a, none, none, none⟩
  | .setf a => ⟨some a, none, none, none⟩
  | .flush a => ⟨some a, none, none, none⟩
  | .send a b => ⟨some a, some b, none, none⟩
  | .tsend a b => ⟨some a, some b, none, none⟩
  | .tdeq d => ⟨none, none, none, some d⟩
  | .advt a => ⟨some a, none, none, none⟩
  | .binit a b => ⟨some a, some b, none, none⟩
  | .arv d a _ _ _ => ⟨some a, none, none, some d⟩
  | .arvp a _ _ _ => ⟨some a, none, none, none⟩
  | .bwt a b _ _ => ⟨some a, some b, none, none⟩
  | .spawn a b f => ⟨some a, if f.toNat < 2 then none else some b, none, none⟩
  | .ctxs a b => ⟨some a, some b, none, none⟩
  | .ctxr a => ⟨some a, none, none, none⟩
  | .prmt a => ⟨some a, none, none, none⟩
  | .lnch a => ⟨some a, none, none, none⟩
  | .actb d a => ⟨some a, none, none, some d⟩
  | .actj a => ⟨some a, none, none, none⟩
  | .acte a => ⟨some a, none, none, none⟩
  | .acta a => ⟨some a, none, none, none⟩
  | .actst d a => ⟨some a, none, none, some d⟩
  | .cpush a b => ⟨some a, some b, none, none⟩
  | .cret a => ⟨some a, none, none, none⟩
  | .mfs d _ => ⟨none, none, none, some d⟩
  | .mts a _ => ⟨some a, none, none, none⟩
  | .settle a _ c => ⟨if c = 2 then some a else none, none, none, none⟩
  | .scrub a _ => ⟨some a, none, none, none⟩
  | .vld _ g _ _ _ => ⟨some g, none, none, none⟩
  | .vst _ g _ _ _ => ⟨some g, none, none, none⟩
  | .vlds _ g s _ _ _ => ⟨some g, some (.g (Fin.ofNat 16 s.toNat)), none, none⟩
  | .vsts _ g s _ _ _ => ⟨some g, some (.g (Fin.ofNat 16 s.toNat)), none, none⟩
  | .vgath _ g _ _ _ _ => ⟨some g, none, none, none⟩
  | .vscat _ g _ _ _ _ => ⟨some g, none, none, none⟩
  | .vldk _ g _ => ⟨some g, none, none, none⟩
  | .vstk _ g _ => ⟨some g, none, none, none⟩
  | .vbcst _ g _ _ _ => ⟨some g, none, none, none⟩
  | .vins _ g b _ _ => ⟨some g, some (.g (Fin.ofNat 16 b.toNat)), none, none⟩
  | .vext _ b _ _ => ⟨none, some (.g (Fin.ofNat 16 b.toNat)), none, none⟩
  | .vsetk _ g _ => ⟨some g, none, none, none⟩
  | .mcfg a _ => ⟨some a, none, none, none⟩
  | .mwl a b _ => ⟨some a, some b, none, none⟩
  | .mma a b _ => ⟨some a, some b, none, none⟩
  | .macp a b _ => ⟨some a, some b, none, none⟩
  | .mclr a _ => ⟨some a, none, none, none⟩
  | .mstage a b _ => ⟨some a, some b, none, none⟩
  | .mcan a _ => ⟨some a, none, none, none⟩
  | .csetb a b _ _ _ => ⟨some a, some b, none, none⟩
  | .csetd a b _ _ _ => ⟨some a, some b, none, none⟩
  | .csetsScale a b _ _ => ⟨some a, some b, none, none⟩
  | .csetsMcast a b _ _ => ⟨some a, some b, none, none⟩
  | .cgo a b _ _ _ _ => ⟨some a, some b, none, none⟩
  | .cgoc a b _ _ _ _ => ⟨some a, some b, none, none⟩
  | _ => ⟨none, none, none, none⟩

/-- The major opcode of an instruction word. -/
def majorOf (i : Instr) : Nat := ((encode i).getD 0).toNat / 2 ^ 26

/-- A lane or a port. -/
def isLP (r : Option Reg) : Bool :=
  match r with
  | some r => r.isLaneOrPort
  | none => false

/-- The stage at which an instruction executes (R66). -/
def stageOf (i : Instr) : Nat :=
  let m := majorOf i
  let q := slotsOf i
  if isLP q.a || isLP q.b || isLP q.d then 8
  else if m = 0x02 || m = 0x0C then 4
  else if m = 0x1A || m = 0x1B || (0x20 ≤ m && m ≤ 0x27) || m = 0x29 || m = 0x2A then 6
  else if m = 0x28 || m = 0x2B || m = 0x2C || m = 0x30 || (0x38 ≤ m && m ≤ 0x3D) then 8
  else if m = 0x31 then
    match i with
    | .trap _ | .brk _ => 10
    | _ => 8
  else 2

/-! ### Ports (R22, R206) -/

/-- A port of the running context's core that leads to a core of its partition (R206). -/
def State.portOk (s : State) (d : Dir) : Bool :=
  match neighbour s.here d with
  | none => false
  | some n => s.partOf (dieOf n) == s.partOf (dieOf s.here)

/-- A port register that leads nowhere. -/
def State.badPort (s : State) (r : Reg) : Bool :=
  match r with
  | .port d => !s.portOk d
  | _ => false

/-- The FIFO of a context for a direction. -/
def State.fifo (s : State) (cid : Nat) (d : Dir) : Port := (s.ctx cid).ports.get (dirIdx d) ⟨[], 0⟩

/-- Changes a FIFO. -/
def State.setFifo (s : State) (cid : Nat) (d : Dir) (p : Port) : State :=
  s.onCtx cid (fun c => { c with ports := c.ports.set (dirIdx d) p })

/-- The context that a port of the running context faces: the same number on the neighbour. -/
def State.facing (s : State) (d : Dir) : Nat :=
  (neighbour s.here d).getD s.here * 16 + ctxOf s.cur

/-- The facing FIFO has a free place that no word on its way holds. -/
def State.portRoom (s : State) (d : Dir) : Bool :=
  let p := s.fifo (s.facing d) (backDir d)
  p.words.length + p.held < Config.portMax

/-- Holds a place of the facing FIFO for a word (R121). -/
def State.holdPlace (s : State) (d : Dir) : State :=
  let p := s.fifo (s.facing d) (backDir d)
  s.setFifo (s.facing d) (backDir d) { p with held := p.held + 1 }

/-- Gives a held place of the facing FIFO back. -/
def State.dropPlace (s : State) (d : Dir) : State :=
  let p := s.fifo (s.facing d) (backDir d)
  s.setFifo (s.facing d) (backDir d) { p with held := p.held - 1 }

/-- A word sets out for the place held for it. -/
def State.sendWord (s : State) (d : Dir) (v : Word) : State :=
  s.send s.here (coreOf (s.facing d)) (.port (s.facing d) (backDir d) v)

/-- Pushes a word toward the facing FIFO; its place is held until it arrives (R121, R206). -/
def State.push (s : State) (d : Dir) (v : Word) : State := (s.holdPlace d).sendWord d v

/-! ### Lanes (R202) -/

/-- The words that a register can give a context now; a plain register always has both. -/
def State.avail (s : State) (cid : Nat) (r : Reg) : Nat :=
  match r with
  | .mq => (s.ctx cid).th.mq.length
  | .vq => (s.ctx cid).th.vq.length
  | .cq => (s.ctx cid).th.cq.length
  | .ib => s.ibCount cid
  | .port d => (s.fifo cid d).words.length
  | _ => 2

/-- Every lane and port of slots a and b holds what the instruction pops, and a port destination has
room (R121). -/
def State.lanesReady (s : State) (cid : Nat) (a b d : Option Reg) : Bool :=
  let ok (r : Option Reg) (n : Nat) : Bool :=
    match r with
    | none => true
    | some r => decide (n ≤ s.avail cid r)
  (if a == b then ok a 2 else ok a 1 && ok b 1)
    && match d with
      | some (.port dir) => { s with cur := cid }.portRoom dir
      | _ => true

/-- Latches a lane message: its header in MSGHDR, its payload as the value (R202). -/
def State.latch (s : State) (r : Rec) : Word × State :=
  let s := s.note s.cur 0x6 s.seqNow s.th.pc r.hdr r.data
  (r.data, s.withTh (fun t => { t with msghdr := r.hdr }))

/-- Pops a lane or a port of the running context. Log 96: a message of ib in a ring entry that a lost slate group holds gives the slot
0, and stays. -/
def State.popLane (s : State) (r : Reg) : Word × State :=
  match r with
  | .mq => match s.th.mq with
    | [] => (0, s)
    | m :: rest => (s.withTh (fun t => { t with mq := rest })).latch m
  | .vq => match s.th.vq with
    | [] => (0, s)
    | m :: rest => (s.withTh (fun t => { t with vq := rest })).latch m
  | .cq => match s.th.cq with
    | [] => (0, s)
    | m :: rest => (s.withTh (fun t => { t with cq := rest })).latch m
  | .ib =>
    match s.ibPop s.cur with
    | none => (0, s)
    | some (m, s) => s.latch m
  | .port d =>
    let p := s.fifo s.cur d
    match p.words with
    | [] => (0, s)
    | w :: rest => (w, s.setFifo s.cur d { p with words := rest })
  | _ => (0, s)

/-! ### Reading (R70, R95) -/

/-- The copy of GTIME of a cluster: never more than 8 ns behind the one that is furthest on (R388). -/
def State.copyNs (s : State) (cluster : Nat) : Word :=
  BitVec.ofNat 64 (max (s.cluster cluster).ns.toNat (s.now.toNat - 8))

/-- GTIME as the cluster of a core holds it (R388). -/
def State.gtime (s : State) (core : Nat) : Word := s.copyNs (clusterOf core)

/-- GTIME as a packet read it at injection, or now for a packet injected at performance (R70). -/
def State.gtOf (s : State) : Word :=
  let now := s.gtime s.here
  let of (sl : Slot) : Option Word :=
    match sl with
    | .fetched .gt v _ => some v
    | _ => none
  match s.me.injected with
  | [] => now
  | p :: _ => ((of p.a).or (of p.b)).getD now

/-- A register other than a lane or port; a register that awaits a late value reads as 0 here and is
waited for by `lateReg`. -/
def State.plain (s : State) (r : Reg) : Word :=
  match r with
  | .g n => (s.me.view n).getD 0
  | .ix n => s.th.ix.get n.val 0
  | .wid => s.th.wid
  | .gt => s.gtOf
  | .pc => ofAddr s.th.pc
  | _ => 0

/-- A general register that awaits a late value. -/
def State.lateReg (s : State) (r : Reg) : Option (Fin 16) :=
  match r with
  | .g n => if (s.me.view n).isNone then some n else none
  | _ => none

/-- Reads or pops one operand. -/
def State.readOp (s : State) (r : Reg) : Word × State :=
  if r.isLaneOrPort then s.popLane r else (s.plain r, s)

/-- What the operands of an instruction give: BAD_PORT, a wait, or the values with every pop made. -/
inductive Opnds where
  | bad (r : Reg)
  | wait (w : Wait)
  | ok (s : State) (x y : Word)

/-- The operands of slots a and b, for a destination d (R70, R74, R121): every pop is made at once, a
before b, and only when all that the instruction pops and pushes is there. Log 71: of two ports that lead nowhere BAD_PORT names the
one of slot a, then of slot b, then of the destination. -/
def State.operands (s : State) (a b d : Reg) : Opnds :=
  if s.badPort a then .bad a
  else if s.badPort b then .bad b
  else if s.badPort d then .bad d
  else
    match s.lateReg a, s.lateReg b with
    | some n, _ => .wait (.operand n)
    | none, some n => .wait (.operand n)
    | none, none =>
      if s.lanesReady s.cur (some a) (some b) (some d) then
        let (x, s1) := s.readOp a
        let (y, s2) := s1.readOp b
        .ok s2 x y
      else .wait (.lanes (some a) (some b) (some d))

/-! ### Writing -/

/-- Writes a destination of majors 0x01 to 0x0E or MFS: a general register or a port; zr discards (R95). -/
def State.put (s : State) (d : Reg) (v : Word) : State :=
  match d with
  | .g n => s.setG n v
  | .port dir => s.push dir v
  | _ => s

/-! ### Completing under the checker (R83, R87 to R90) -/

/-- The packets that always end a checked block (R87). -/
def endsBlock : Instr → Bool
  | .beq .. | .bne .. | .blt .. | .bge .. | .bltn .. | .bgen .. | .j .. | .jal .. | .jr .. | .jalr ..
  | .nest .. | .next .. => true
  | _ => false

/-- The word at an address is a BSIG. -/
def State.bsigAt (s : State) (pc : Addr48) : Bool :=
  match s.fetchWord s.cur pc with
  | none => false
  | some w => match decode w with
    | .ok (.bsig _) => true
    | _ => false

/-- A packet ends a checked block: it is one of those that always do, or the next packet in program order is a BSIG. TRET closes
the block without a comparison (R87). -/
def State.endsAt (s : State) (i : Instr) (pc : Addr48) : Bool :=
  match i with
  | .tret => false
  | i => endsBlock i || s.bsigAt (nextPc pc)

/-- ENDB of the packet being performed, in an open checked block, as the foot has marked it (R87). -/
def State.endb (s : State) (i : Instr) : Bool :=
  s.th.sig.en && s.th.sig.isOpen && (match s.me.injected with
    | p :: _ => p.endb
    | [] => s.endsAt i s.th.pc)

/-- The checker's state once the packet is counted, before its end byte. -/
def State.counted (s : State) (i : Instr) : Sig :=
  let q := slotsOf i
  match i with
  | .bsig _ | .bsigt _ => s.th.sig
  | _ => if s.th.sig.en then s.th.sig.count (BitVec.ofNat 8 (majorOf i)) q.a q.b q.d else s.th.sig

/-- The comparison at the end of a block fails (R89). -/
def State.sigFails (s : State) (i : Instr) (taken : Bool) : Bool :=
  s.endb i && (s.counted i).final taken != (s.counted i).expected taken

/-- DETAIL of SIGNATURE (R214). -/
def State.sigDetail (s : State) (i : Instr) (taken : Bool) : Word :=
  BitVec.ofNat 64 (((s.counted i).final taken).toNat * 2 ^ 16 + ((s.counted i).expected taken).toNat)

/-- The checker's state after the packet. -/
def State.sigAfter (s : State) (i : Instr) (taken : Bool) : Sig :=
  if s.endb i then { s.counted i with crc := (s.counted i).final taken, isOpen := false } else s.counted i

/-- COMPLETES an instruction that began at s and whose effect gives s': the checker's comparison stands
before the effect (R83, R89), then the packet is done and the thread goes on at npc. -/
def State.complete (s : State) (i : Instr) (taken : Bool) (npc : Addr48) (s' : State) : Out State :=
  if s.sigFails i taken then s.raise .signature (s.sigDetail i taken)
  else
    let g := s.sigAfter i taken
    .next ((if s.th.sig.en then s'.withTh (fun t => { t with sig := { g with en := t.sig.en } }) else s').advance i npc taken)

/-- Completes an instruction that goes on at PC + 4. -/
def State.done (s : State) (i : Instr) (s' : State) : Out State :=
  s.complete i false (nextPc s.th.pc) s'

/-- The operands of an instruction, and what follows once it has them. -/
def State.withOps (s : State) (a b d : Reg) (k : State → Word → Word → Out State) : Out State :=
  match s.operands a b d with
  | .bad r => s.raise .badPort (BitVec.ofNat 64 r.num)
  | .wait w => s.waitFor w
  | .ok s' x y => k s' x y

end Sys2Proof.Machine
end

