-- ==== Sys2Proof/Machine/Alu.lean ====
section
/-! DEFINITION. Majors 0x01 and 0x03 to 0x0E but the multiplies: the integer unit, comparisons, selection,
addresses, bit counts, immediates and bit fields (R120 to R128, R131 to R134). -/

namespace Sys2Proof.Machine

open Sys2Proof

/-! ### Result functions -/

/-- A W form: computes at 32 bits and sign-extends (R120). -/
def w32 (f : BitVec 32 → BitVec 32 → BitVec 32) (x y : Word) : Word := sextLow (f (lo32 x) (lo32 y))

/-- SHL (R123). -/
def shlV (x : Word) (n : Nat) : Word := if 64 ≤ n then 0 else x <<< n
/-- SHR (R123). -/
def shrV (x : Word) (n : Nat) : Word := if 64 ≤ n then 0 else x >>> n
/-- SHA (R123). -/
def shaV (x : Word) (n : Nat) : Word := x.sshiftRight (if 63 < n then 63 else n)
/-- ROTL (R123). -/
def rotlV (x : Word) (n : Nat) : Word := let k := n % 64; (x <<< k) ||| (x >>> (64 - k))
/-- SHLW (R123). -/
def shlwV (x : Word) (n : Nat) : Word := sextLow (if 32 ≤ n then 0 else lo32 x <<< n)
/-- SHRW (R123). -/
def shrwV (x : Word) (n : Nat) : Word := sextLow (if 32 ≤ n then 0 else lo32 x >>> n)
/-- SHAW (R123). -/
def shawV (x : Word) (n : Nat) : Word := sextLow ((lo32 x).sshiftRight (if 31 < n then 31 else n))
/-- ROTLW (R123). -/
def rotlwV (x : Word) (n : Nat) : Word :=
  let k := n % 32; sextLow ((lo32 x <<< k) ||| (lo32 x >>> (32 - k)))

/-- A relation as a register value (R125). -/
def flagW (b : Bool) : Word := if b then 1 else 0

/-- SPA (R127). -/
def spaV (a b : Word) : Word := BitVec.ofNat 64 (2 ^ 63 + bits a 0 12 * 2 ^ 19 + bits b 0 19)
/-- SPX (R127). -/
def spxV (a : Word) : Word :=
  if bit a 63 && bits a 31 32 == 0 then BitVec.ofNat 64 (bits a 19 12) else BitVec.allOnes 64

/-- The immediate count of R124. -/
def shCount (n : BitVec 5) (h : BitVec 1) : Nat := 32 * h.toNat + n.toNat

/-- CLZ and its kin on the low n bits (R131). -/
def clzV (x : Word) : Word := BitVec.ofNat 64 (clzNat 64 x.toNat)
def clzwV (x : Word) : Word := sextLow (BitVec.ofNat 32 (clzNat 32 (lo32 x).toNat))
def ctzV (x : Word) : Word := BitVec.ofNat 64 (ctzNat 64 x.toNat)
def ctzwV (x : Word) : Word := sextLow (BitVec.ofNat 32 (ctzNat 32 (lo32 x).toNat))
def popV (x : Word) : Word := BitVec.ofNat 64 (popNat 64 x.toNat)
def popwV (x : Word) : Word := sextLow (BitVec.ofNat 32 (popNat 32 (lo32 x).toNat))
def brevV (x : Word) : Word := BitVec.ofNat 64 (revNat 64 x.toNat)
def brevwV (x : Word) : Word := sextLow (BitVec.ofNat 32 (revNat 32 (lo32 x).toNat))
def bswapV (x : Word) : Word := BitVec.ofNat 64 (leNat (leBytes 8 x.toNat).reverse)
def bswapwV (x : Word) : Word := sextLow (BitVec.ofNat 32 (leNat (leBytes 4 (lo32 x).toNat).reverse))

/-- The sign-extended immediate (R132). -/
def simm (i : BitVec 16) : Word := i.signExtend 64
/-- The zero-extended immediate (R132). -/
def zimm (i : BitVec 16) : Word := i.zeroExtend 64

/-- EXT (R134). -/
def extV (x : Word) (p l : BitVec 6) : Word := BitVec.ofNat 64 (bits x p.toNat (l.toNat + 1))
/-- EXTX (R134). -/
def extxV (x : Word) (p l : BitVec 6) : Word := sextW (bits x p.toNat (l.toNat + 1)) (l.toNat + 1)
/-- INS (R134). -/
def insV (c x : Word) (p l : BitVec 6) : Word :=
  let m : Word := BitVec.ofNat 64 ((2 ^ (l.toNat + 1) - 1) * 2 ^ p.toNat)
  (c &&& ~~~m) ||| BitVec.ofNat 64 (bits x 0 (l.toNat + 1) * 2 ^ p.toNat)

/-! ### The shared form: read, compute, write, done -/

/-- An instruction of two operands whose only effect is its destination (R120, R121). -/
def alu2 (i : Instr) (d a b : Reg) (f : Word → Word → Word) (s : State) : Out State :=
  s.withOps a b d (fun s' x y => s.done i (s'.put d (f x y)))

/-- An instruction of one operand whose only effect is its destination. -/
def alu1 (i : Instr) (d a : Reg) (f : Word → Word) (s : State) : Out State :=
  s.withOps a .zr d (fun s' x _ => s.done i (s'.put d (f x)))

/-- SEL and INS, which read the old d as slot c (R121, R126, R134). -/
def alu3 (i : Instr) (d a b : Reg) (f : Word → Word → Word → Word) (s : State) : Out State :=
  match s.lateReg d with
  | some n => s.waitFor (.operand n)
  | none => s.withOps a b .zr (fun s' x y => s.done i (s'.put d (f (s.plain d) x y)))

/-! ### Major 0x01 -/

/-- ADD (R122). -/
def execAdd (d a b : Reg) (s : State) : Out State := alu2 (.add d a b) d a b (fun x y => x + y) s
/-- ADDW (R122). -/
def execAddw (d a b : Reg) (s : State) : Out State := alu2 (.addw d a b) d a b (w32 (fun x y => x + y)) s
/-- SUB (R122). -/
def execSub (d a b : Reg) (s : State) : Out State := alu2 (.sub d a b) d a b (fun x y => x - y) s
/-- SUBW (R122). -/
def execSubw (d a b : Reg) (s : State) : Out State := alu2 (.subw d a b) d a b (w32 (fun x y => x - y)) s
/-- AND (R122). -/
def execAndR (d a b : Reg) (s : State) : Out State := alu2 (.andR d a b) d a b (fun x y => x &&& y) s
/-- OR (R122). -/
def execOrR (d a b : Reg) (s : State) : Out State := alu2 (.orR d a b) d a b (fun x y => x ||| y) s
/-- XOR (R122). -/
def execXorR (d a b : Reg) (s : State) : Out State := alu2 (.xorR d a b) d a b (fun x y => x ^^^ y) s
/-- ANDN (R122). -/
def execAndn (d a b : Reg) (s : State) : Out State := alu2 (.andn d a b) d a b (fun x y => x &&& ~~~y) s
/-- ORN (R122). -/
def execOrn (d a b : Reg) (s : State) : Out State := alu2 (.orn d a b) d a b (fun x y => x ||| ~~~y) s
/-- SHL (R123). -/
def execShl (d a b : Reg) (s : State) : Out State := alu2 (.shl d a b) d a b (fun x y => shlV x y.toNat) s
/-- SHLW (R123): the count is low(b, 32). -/
def execShlw (d a b : Reg) (s : State) : Out State := alu2 (.shlw d a b) d a b (fun x y => shlwV x (lo32 y).toNat) s
/-- SHR (R123). -/
def execShr (d a b : Reg) (s : State) : Out State := alu2 (.shr d a b) d a b (fun x y => shrV x y.toNat) s
/-- SHRW (R123). -/
def execShrw (d a b : Reg) (s : State) : Out State := alu2 (.shrw d a b) d a b (fun x y => shrwV x (lo32 y).toNat) s
/-- SHA (R123). -/
def execSha (d a b : Reg) (s : State) : Out State := alu2 (.sha d a b) d a b (fun x y => shaV x y.toNat) s
/-- SHAW (R123). -/
def execShaw (d a b : Reg) (s : State) : Out State := alu2 (.shaw d a b) d a b (fun x y => shawV x (lo32 y).toNat) s
/-- ROTL (R123). -/
def execRotl (d a b : Reg) (s : State) : Out State := alu2 (.rotl d a b) d a b (fun x y => rotlV x y.toNat) s
/-- ROTLW (R123). -/
def execRotlw (d a b : Reg) (s : State) : Out State := alu2 (.rotlw d a b) d a b (fun x y => rotlwV x (lo32 y).toNat) s
/-- SHLI (R124). -/
def execShli (d a : Reg) (n : BitVec 5) (h : BitVec 1) (s : State) : Out State :=
  alu1 (.shli d a n h) d a (fun x => shlV x (shCount n h)) s
/-- SHLIW (R124). -/
def execShliw (d a : Reg) (n : BitVec 5) (s : State) : Out State := alu1 (.shliw d a n) d a (fun x => shlwV x n.toNat) s
/-- SHRI (R124). -/
def execShri (d a : Reg) (n : BitVec 5) (h : BitVec 1) (s : State) : Out State :=
  alu1 (.shri d a n h) d a (fun x => shrV x (shCount n h)) s
/-- SHRIW (R124). -/
def execShriw (d a : Reg) (n : BitVec 5) (s : State) : Out State := alu1 (.shriw d a n) d a (fun x => shrwV x n.toNat) s
/-- SHAI (R124). -/
def execShai (d a : Reg) (n : BitVec 5) (h : BitVec 1) (s : State) : Out State :=
  alu1 (.shai d a n h) d a (fun x => shaV x (shCount n h)) s
/-- SHAIW (R124). -/
def execShaiw (d a : Reg) (n : BitVec 5) (s : State) : Out State := alu1 (.shaiw d a n) d a (fun x => shawV x n.toNat) s
/-- SLT (R125). -/
def execSlt (d a b : Reg) (s : State) : Out State := alu2 (.slt d a b) d a b (fun x y => flagW (x.slt y)) s
/-- SLTN (R125). -/
def execSltn (d a b : Reg) (s : State) : Out State := alu2 (.sltn d a b) d a b (fun x y => flagW (x.ult y)) s
/-- SEQ (R125). -/
def execSeq (d a b : Reg) (s : State) : Out State := alu2 (.seq d a b) d a b (fun x y => flagW (x == y)) s
/-- SNE (R125). -/
def execSne (d a b : Reg) (s : State) : Out State := alu2 (.sne d a b) d a b (fun x y => flagW (x != y)) s
/-- MIN (R125). -/
def execMin (d a b : Reg) (s : State) : Out State := alu2 (.min d a b) d a b (fun x y => if x.sle y then x else y) s
/-- MAX (R125). -/
def execMax (d a b : Reg) (s : State) : Out State := alu2 (.max d a b) d a b (fun x y => if x.sle y then y else x) s
/-- MINN (R125). -/
def execMinn (d a b : Reg) (s : State) : Out State := alu2 (.minn d a b) d a b (fun x y => if x.ule y then x else y) s
/-- MAXN (R125). -/
def execMaxn (d a b : Reg) (s : State) : Out State := alu2 (.maxn d a b) d a b (fun x y => if x.ule y then y else x) s
/-- SEL (R126). -/
def execSel (d a b : Reg) (s : State) : Out State :=
  alu3 (.sel d a b) d a b (fun c x y => if c != 0 then x else y) s

/-! ### Addresses (R127, R128) -/

/-- SPA (R127). -/
def execSpa (d a b : Reg) (s : State) : Out State := alu2 (.spa d a b) d a b spaV s
/-- SPX (R127). -/
def execSpx (d a : Reg) (s : State) : Out State := alu1 (.spx d a) d a spxV s
/-- What HOME writes for an address: the home core's number, or all ones (R128). -/
def State.homeV (s : State) (x : Word) : Word :=
  match s.homeOf s.cur x with
  | some h => BitVec.ofNat 64 h
  | none => BitVec.allOnes 64
/-- HOME (R128). -/
def execHome (d a : Reg) (s : State) : Out State := alu1 (.home d a) d a s.homeV s

/-! ### Major 0x03 (R131) -/

/-- CLZ (R131). -/
def execClz (d a : Reg) (s : State) : Out State := alu1 (.clz d a) d a clzV s
/-- CLZW (R131). -/
def execClzw (d a : Reg) (s : State) : Out State := alu1 (.clzw d a) d a clzwV s
/-- CTZ (R131). -/
def execCtz (d a : Reg) (s : State) : Out State := alu1 (.ctz d a) d a ctzV s
/-- CTZW (R131). -/
def execCtzw (d a : Reg) (s : State) : Out State := alu1 (.ctzw d a) d a ctzwV s
/-- POP (R131). -/
def execPop (d a : Reg) (s : State) : Out State := alu1 (.pop d a) d a popV s
/-- POPW (R131). -/
def execPopw (d a : Reg) (s : State) : Out State := alu1 (.popw d a) d a popwV s
/-- BREV (R131). -/
def execBrev (d a : Reg) (s : State) : Out State := alu1 (.brev d a) d a brevV s
/-- BREVW (R131). -/
def execBrevw (d a : Reg) (s : State) : Out State := alu1 (.brevw d a) d a brevwV s
/-- BSWAP (R131). -/
def execBswap (d a : Reg) (s : State) : Out State := alu1 (.bswap d a) d a bswapV s
/-- BSWAPW (R131). -/
def execBswapw (d a : Reg) (s : State) : Out State := alu1 (.bswapw d a) d a bswapwV s

/-! ### Majors 0x04 to 0x0B and 0x0D (R132, R133) -/

/-- ADDI (R132). -/
def execAddi (d a : Reg) (i : BitVec 16) (s : State) : Out State := alu1 (.addi d a i) d a (fun x => x + simm i) s
/-- ANDI (R132). -/
def execAndi (d a : Reg) (i : BitVec 16) (s : State) : Out State := alu1 (.andi d a i) d a (fun x => x &&& zimm i) s
/-- ORI (R132). -/
def execOri (d a : Reg) (i : BitVec 16) (s : State) : Out State := alu1 (.ori d a i) d a (fun x => x ||| zimm i) s
/-- XORI (R132). -/
def execXori (d a : Reg) (i : BitVec 16) (s : State) : Out State := alu1 (.xori d a i) d a (fun x => x ^^^ zimm i) s
/-- SLTI (R132). -/
def execSlti (d a : Reg) (i : BitVec 16) (s : State) : Out State := alu1 (.slti d a i) d a (fun x => flagW (x.slt (simm i))) s
/-- SLTNI (R132). -/
def execSltni (d a : Reg) (i : BitVec 16) (s : State) : Out State := alu1 (.sltni d a i) d a (fun x => flagW (x.ult (zimm i))) s
/-- LI (R132). -/
def execLi (d : Reg) (i : BitVec 16) (s : State) : Out State := alu1 (.li d i) d .zr (fun _ => simm i) s
/-- LIH (R132, R133). -/
def execLih (d : Reg) (i : BitVec 16) (s : State) : Out State := alu1 (.lih d i) d .zr (fun _ => zimm i <<< 16) s
/-- ADDIW (R132). -/
def execAddiw (d a : Reg) (i : BitVec 16) (s : State) : Out State := alu1 (.addiw d a i) d a (fun x => sextLow (lo32 (x + simm i))) s

/-! ### Major 0x0E (R134) -/

/-- EXT (R134). -/
def execExt (d a : Reg) (p l : BitVec 6) (s : State) : Out State := alu1 (.ext d a p l) d a (fun x => extV x p l) s
/-- EXTX (R134). -/
def execExtx (d a : Reg) (p l : BitVec 6) (s : State) : Out State := alu1 (.extx d a p l) d a (fun x => extxV x p l) s
/-- INS (R134): the old d is slot c. -/
def execIns (d a : Reg) (p l : BitVec 6) (s : State) : Out State :=
  alu3 (.ins d a p l) d a .zr (fun c x _ => insV c x p l) s

end Sys2Proof.Machine
end

