-- ==== Sys2Proof/Machine/Home.lean ====
section
/-! DEFINITION. Homes: what the home of a word does with each request that reaches it (R184, R187, R188,
R191 to R193, R196, R198, R207 to R211, R213, R233, R241, R246, R247), and the watchers that every store wakes (R192). -/

namespace Sys2Proof.Machine

open Sys2Proof

/-! ### Watches (R191, R192) -/

/-- The requests of a context that wait for a store are to be sent again with their count restarted (R186). -/
def State.resendParked (s : State) (core cid : Nat) : State :=
  s.onCore core (fun c => { c with resends := c.resends.map (fun y =>
    if y.1.cid == cid && y.2.parked then ({ y.1 with tries := 0 }, { y.2 with parked := false, delay := 0 }) else y) })

/-- A context parked on a refused request of a word wakes when any store is performed on the word (R186). -/
def State.wakeRefused (s : State) (k : Nat) : State :=
  s.cores.foldl (fun s e =>
    e.2.resends.foldl (fun s x =>
      if x.2.parked && s.phys x.1.key == some k then (s.resendParked e.1 x.1.cid).onCtx x.1.cid (fun c => { c with ready := true })
      else s) s) s

/-- A store is performed on a word: every watcher's ready bit is set, on the home's own core at once and
elsewhere by a message; a context parked on a refused request of it wakes (R186). -/
def State.wakeWatchers (s : State) (k : Nat) : State :=
  let s := s.wakeRefused k
  s.cores.foldl (fun s e =>
    e.2.watches.foldl (fun s w =>
      if w.1 == k then
        if coreOf w.2 == e.1 then s.onCtx w.2 (fun c => { c with ready := true })
        else s.send e.1 (coreOf w.2) (.wake w.2)
      else s) s) s

/-- The words that n bytes from a key touch. -/
def wordKeys (k n : Nat) : List Nat := (List.range ((k % 8 + n + 7) / 8)).map (fun j => k / 8 * 8 + j * 8)

/-- Writes bytes at a memory key and wakes the watchers of the words: the one store that every agent's
writes go through. `none` when a lost group or a word that cannot be read refuses it (R254). -/
def State.store (s : State) (k : Nat) (bs : List Byte) : Option State :=
  (if padKey k then s.padWrite k bs else some { s with mem := s.mem.put k bs }).map
    (fun s => (wordKeys k bs.length).foldl (fun s w => s.wakeWatchers w) s)

/-- Reads n bytes at a memory key. -/
def State.load (s : State) (k n : Nat) : Option (Nat × State) :=
  if padKey k then
    let p := s.padRead (padCore k) (padOff k) n
    if p.2 then some (s.mem.nat k n, p.1) else none
  else some (s.mem.nat k n, s)

/-- The state after a read that could not be had: the words found uncorrectable are counted (R256). -/
def State.misread (s : State) (k n : Nat) : State := if padKey k then (s.padRead (padCore k) (padOff k) n).1 else s

/-! ### Full-empty state (R184, R187, R241) -/

/-- The word is full. -/
def State.full (s : State) (h k : Nat) : Bool := ((s.core h).reserved.find k).isNone

/-- The full-empty bit of a scratchpad word changes: its parity follows (R251). -/
def State.flipFe (s : State) (h k : Nat) : State :=
  if padKey k then s.onCore h (fun c => queueParity c (padOff k / 8) 0 true) else s

/-- Sets a word empty, or reserved by a thread. -/
def State.setEmpty (s : State) (h k : Nat) (atom : Bool) (holder : Option Nat) : State :=
  (s.onCore h (fun c => { c with reserved := c.reserved.set k ⟨atom, holder⟩ })).flipFe h k

/-- Changes every thread, wherever it is. -/
def State.onThreads (s : State) (f : Thread → Thread) : State :=
  let s := s.onHeld (fun p => { p with th := f p.th })
  { s with ctxs := s.ctxs.mapVal (fun c => { c with th := f c.th, reserved := c.reserved.map f }) }

/-- Takes a word off every thread's reservation list, wherever the thread is (R242). -/
def State.unreserve (s : State) (k : Nat) : State := s.onThreads (fun t => { t with resv := t.resv.filter (fun x => x != k) })

/-- Sets a word full, or not reserved. -/
def State.setFull (s : State) (h k : Nat) : State :=
  ((s.onCore h (fun c => { c with reserved := c.reserved.del k })).flipFe h k).unreserve k

/-- Changes a thread, wherever it is; 0 names no thread. -/
def State.onThread (s : State) (tid : Nat) (f : Thread → Thread) : State :=
  let on (t : Thread) : Thread := if t.tid == tid && tid != 0 then f t else t
  let s := s.onHeld (fun p => { p with th := on p.th })
  { s with ctxs := s.ctxs.mapVal (fun c =>
      { c with th := if c.holdsThread then on c.th else c.th, reserved := c.reserved.map on }) }

/-- A thread is somewhere: in a context, waiting for one, held, or on its way. -/
def State.threadLives (s : State) (tid : Nat) : Bool :=
  s.ctxs.any (fun e => (e.2.holdsThread && e.2.th.tid == tid) || (match e.2.reserved with | some t => t.tid == tid | none => false))
    || s.heldThreads.any (fun p => p.th.tid == tid)

/-- A thread takes a reservation of a word: its list records it, wherever the thread is (R242). -/
def State.reserveFor (s : State) (tid k : Nat) : State := s.onThread tid (fun t => { t with resv := t.resv ++ [k] })

/-- The requests that wait for a word's full-empty state. -/
def isFe : ReqOp → Bool
  | .ldf | .claim | .ldff | .stf _ | .sete | .reserve .. | .release _ => true
  | _ => false

/-- A request of the kinds that take the word (R187). -/
def takesWord : ReqOp → Bool
  | .ldf | .claim | .reserve .. => true
  | _ => false

/-- Whether a reservation of a request is an ATOM's. -/
def isAtom : ReqOp → Bool
  | .reserve .. => true
  | _ => false

/-- Removes a waiter. -/
def State.dropWaiter (s : State) (h : Nat) (r : Req) : State :=
  s.onCore h (fun c => { c with waits := c.waits.eraseP (fun w => w.req == r) })

/-- The requests that wait for a word at its home, in the order queued. -/
def State.waitersOf (s : State) (h k : Nat) : List Req :=
  ((s.core h).waits.filter (fun w => w.key == k)).map (fun w => w.req)

/-- Replies a word's value to the LDFF requests at the head of its queue. -/
def serveLdff (h : Nat) (v : Word) (s : State) : List Req → State × List Req
  | [] => (s, [])
  | r :: rest =>
    match r.op with
    | .ldff => serveLdff h v ((s.dropWaiter h r).send h (coreOf r.cid) (.reply r v none)) rest
    | _ => (s, r :: rest)

/-- serve(w) of R184; with `orph`, as R187 gives it for the word of a holder that ended. -/
def State.serve (s : State) (h k : Nat) (orph : Bool) : State :=
  let v := s.mem.word k
  let q := (s.waitersOf h k).filter (fun r => isFe r.op)
  let (s1, rest) := serveLdff h v s q
  let next := if orph then rest.find? (fun r => takesWord r.op) else rest.head?
  match next with
  | some r =>
    if takesWord r.op then
      let s2 := (s1.dropWaiter h r).send h (coreOf r.cid) (.reply r v (if orph then some .orphaned else none))
      let s3 := (s2.unreserve k).onCore h (fun c => { c with reserved := c.reserved.set k ⟨isAtom r.op && !orph, some r.tid⟩ })
      s3.reserveFor r.tid k
    else s1.setFull h k
  | none => s1.setFull h k

/-- The first queued STF of a word that has just become empty is performed and served (R184, R198). -/
def State.serveStf (s : State) (h k : Nat) : State :=
  match (s.waitersOf h k).find? (fun r => match r.op with | .stf _ | .release _ => true | _ => false) with
  | none => s
  | some r =>
    let v := match r.op with
      | .stf v | .release v => v
      | _ => 0
    match (s.dropWaiter h r).store k (leBytes 8 v.toNat) with
    | none => s
    | some s => (s.serve h k false).send h (coreOf r.cid) (.ack r 1 none)

/-! ### Answers of a home -/

/-- What a home does with a request: replies, acknowledges, answers without a value to write, reports a
fault code of R218 (`recon` when its own slate group cannot give the word), refuses for a full table,
queues it, or keeps it until the copies of the line are gone or context 0 has acted. -/
inductive Resp where
  | value (v : Word) (cause : Option Cause)
  | acked (cause : Option Cause)
  | answered (v : Option Word)
  | faulted (fc : Nat) (recon : Bool)
  | refused
  | queued
  | held
  /-- passed on to the hub that reaches host memory (R249) -/
  | passed (hub : Nat)
  deriving DecidableEq, Repr

/-- The answer of a home whose slate group cannot give n bytes (R183, R254). -/
def State.lostRead (s : State) (k n : Nat) : State × Resp := (s.misread k n, .faulted 1 true)

/-- Queues a request for the word at a key in the wait table of 64, or refuses it (R186, R241). -/
def State.queue (s : State) (h k : Nat) (r : Req) : State × Resp :=
  if (s.core h).waits.length < Config.waitMax then
    (s.onCore h (fun c => { c with waits := c.waits ++ [⟨r, k⟩] }), .queued)
  else (s, .refused)

/-- A further global word can be reserved at a slice (R241). -/
def State.resvRoom (s : State) (h k : Nat) : Bool :=
  padKey k || decide (((s.core h).reserved.filter (fun e => !padKey e.1)).length < Config.resvTabMax)

/-! ### Lines of slices and their copies (R23, R25, R238, R246, R247) -/

/-- The home line of a global memory key: its first byte. -/
def lineOf (k : Nat) : Nat := k / 256 * 256

/-- A home line that a slice does not hold. -/
def DirLine.empty : DirLine := ⟨[], false, false, 0, 0, []⟩

/-- The directory entry of a home line. -/
def dirOf (c : Core) (line : Nat) : DirLine := c.dir.get line DirLine.empty

/-- Changes the directory entry of a home line. -/
def State.onLine (s : State) (h line : Nat) (f : DirLine → DirLine) : State :=
  s.onCore h (fun c => { c with dir := c.dir.set line (f (dirOf c line)) })

/-- The code of a replica die as a sharer (R248). -/
def replicaCode (die : Nat) : Nat := die * 512 + 31

/-- A sharer code that names a replica die. -/
def isReplica (code : Nat) : Bool := code % 512 == 31

/-- The core of a die whose slice holds the die's replica of a line (R246): home_of's hash over the line's number (log 47). -/
def replicaCore (die line : Nat) : Nat :=
  let n := (line - globalBase) / 256
  let q := (n ^^^ (n / 2 ^ 9) ^^^ (n / 2 ^ 18) ^^^ (n / 2 ^ 27)) % 384
  die * 512 + q / 24 * 32 + q % 24

/-- A die's replica of a line, when its slice holds one (R246). -/
def State.replica (s : State) (die line : Nat) : Option Replica := (s.core (replicaCore die line)).reps.find line

/-- The core that receives the messages of a sharer. -/
def sharerCore (code line : Nat) : Nat := if isReplica code then replicaCore (code / 512) line else code

/-- The copies of a line leave one sharer: a core's L1 (which lists its lines by virtual key), or a die's replica after the
L1 copies that it supplied. -/
def State.purgeSharer (s : State) (code line : Nat) : State :=
  let off (s : State) (core : Nat) : State :=
    s.onCore core (fun c => { c with l1 := c.l1.filter (fun x => (s.phys x.key).map lineOf != some line) })
  if isReplica code then
    let die := code / 512
    ((((s.replica die line).map (fun r => r.sharers)).getD []).foldl off s).onCore (replicaCore die line) (fun c => { c with reps := c.reps.del line })
  else off s code

/-- Every recorded copy of a line leaves at once. -/
def State.purgeLine (s : State) (h line : Nat) : State :=
  ((dirOf (s.core h) line).sharers.foldl (fun s c => s.purgeSharer c line) s).onLine h line (fun d => { d with sharers := [] })

/-- A slice gives up a line when it holds as many as it has room for: a home line without copies, else a replica, else a home
line after its copies; not one that waits for context 0 (R25, R246). -/
def State.sliceRoom (s : State) (h : Nat) : State :=
  let c := s.core h
  if c.dir.length + c.reps.length < Config.sliceMax then s
  else
    match List.find? (fun (e : Nat × DirLine) => e.2.sharers.isEmpty && !e.2.ovf) c.dir with
    | some e => s.setCore h { c with dir := c.dir.del e.1 }
    | none =>
      match c.reps with
      | e :: _ =>
        let s := s.purgeSharer (replicaCode (dieOf h)) e.1
        match List.find? (fun (x : Nat × Core) => (dirOf x.2 e.1).sharers.contains (replicaCode (dieOf h))) s.cores with
        | some x => s.send h x.1 (.drop e.1 (dieOf h))
        | none => s
      | [] =>
        match List.find? (fun (e : Nat × DirLine) => !e.2.ovf) c.dir with
        | some e => (s.purgeLine h e.1).onCore h (fun c => { c with dir := c.dir.del e.1 })
        | none => s

/-- The 64-byte sectors of a line that n bytes from a key touch. -/
def sectorsIn (k n : Nat) : List Nat := (List.range 4).filter (fun j => decide (k % 256 < j * 64 + 64) && decide (j * 64 < k % 256 + n))

/-- The 4-byte words of sector j of a line that n bytes from a key touch, as a mask of 16. -/
def sectorMask (k n j : Nat) : BitVec 16 :=
  BitVec.ofNat 16 ((List.range 16).foldl (fun m w =>
    let b := j * 64 + w * 4
    if k % 256 < b + 4 && b < k % 256 + n then m + 2 ^ w else m) 0)

/-- A sector of a line is brought in, so that every word of it is valid. -/
def DirLine.fetched (d : DirLine) (j : Nat) : DirLine := { d with valid := d.valid ||| (1#4 <<< j), masks := d.masks.del j }

/-- A read makes the sectors that it touches valid (R246). -/
def DirLine.readAt (d : DirLine) (k n : Nat) : DirLine := (sectorsIn k n).foldl DirLine.fetched d

/-- A write makes the sectors that it touches dirty, and notes the words written in a sector that is not valid, which is valid
once all of them have been; a word written in part is brought in first (R246). -/
def DirLine.writtenAt (d : DirLine) (k n : Nat) : DirLine :=
  (sectorsIn k n).foldl (fun d j =>
    let d := { d with dirty := d.dirty ||| (1#4 <<< j) }
    if d.valid.getLsbD j then d
    else if k % 4 != 0 || n % 4 != 0 then d.fetched j
    else
      let m := d.masks.get j 0 ||| sectorMask k n j
      if m = BitVec.allOnes 16 then d.fetched j else { d with masks := d.masks.set j m }) d

/-- The home's slice takes up the line of an access of n bytes at a global key; scratchpad and host memory have none. -/
def State.touch (s : State) (h k n : Nat) (write : Bool) : State :=
  if padKey k || isHostKey k then s
  else
    let line := lineOf k
    let s := if ((s.core h).dir.find line).isSome then s else s.sliceRoom h
    s.onLine h line (fun d => if write then d.writtenAt k n else d.readAt k n)

/-- A sharer joins a line's directory entry; a fifth sets the overflow bit, queues a record and raises
DIR_OVERFLOW at context 0 of the home core (R247). -/
def State.addSharer (s : State) (h line code : Nat) : State :=
  let d := dirOf (s.core h) line
  if d.sharers.contains code then s
  else if d.sharers.length < 4 then s.onLine h line (fun d => { d with sharers := d.sharers ++ [code] })
  else
    let s := (s.onLine h line (fun d => { d with ovf := true })).onCore h (fun c => { c with ovfq := c.ovfq ++ [(code, false, line)] })
    s.supervise h .dirOverflow (BitVec.ofNat 64 (line - globalBase))

/-- An invalidation of a line by its home is on its way. -/
def State.invalidating (s : State) (h line : Nat) : Bool :=
  s.net.any (fun m => match m.body with
    | .inval l o _ false => l == line && o == h
    | _ => false)

/-- A back-invalidation of a line is on its way to the host (R249). -/
def State.backInvalidating (s : State) (line : Nat) : Bool :=
  s.net.any (fun m => match m.body with
    | .backInval l => l == line
    | _ => false)

/-- No copy of a line is left in the package, and no overflow holds its writes (R238, R247). -/
def DirLine.free (d : DirLine) : Bool := d.sharers.isEmpty && !d.ovf

/-- A write to a global line may be performed now: no copy is left, in the package or with the host, and no overflow holds
it (R238, R247, R249). -/
def State.lineFree (s : State) (h k : Nat) : Bool :=
  padKey k || ((dirOf (s.core h) (lineOf k)).free && !s.hostLines.contains (lineOf k))

/-- A home sends a sharer an invalidation of a line: one of its own, or one that a window store asks for (R238, R248). -/
def State.sendInval (s : State) (h code line : Nat) (window : Bool) : State :=
  s.send h (sharerCore code line) (.inval line h code window)

/-- A home asks every sharer and the host to give up a line, once. -/
def State.recall (s : State) (h line : Nat) : State :=
  let s := if s.invalidating h line then s
    else (dirOf (s.core h) line).sharers.foldl (fun s c => s.sendInval h c line false) s
  if s.hostLines.contains line && !(s.backInvalidating line) then s.send h hubW (.backInval line) else s

/-- A write to a line whose overflow bit is set is held: a second record, and DIR_OVERFLOW again (R247). -/
def State.overflowHeld (s : State) (h line : Nat) : State :=
  (s.onCore h (fun c => { c with ovfq := c.ovfq ++ [(0x01E, true, line)] })).supervise h .dirOverflow
    (BitVec.ofNat 64 (line - globalBase))

/-- What a home does first with a write to a line that has copies: it sends the sharers and the host invalidations and
holds the write, for context 0 when the overflow bit is set (R238, R247). -/
def State.clearLine (s : State) (h k : Nat) : State × Resp :=
  let line := lineOf k
  let s := s.recall h line
  (if (dirOf (s.core h) line).ovf then s.overflowHeld h line else s, .held)

/-- A reader's core, or its die's replica, becomes a sharer of a line it has read (R246, R247). -/
def State.share (s : State) (h k n cid : Nat) : State :=
  if padKey k || isHostKey k then s
  else
    let die := dieOf (coreOf cid)
    (s.touch h k n false).addSharer h (lineOf k) (if die == dieOf h then coreOf cid else replicaCode die)

/-! ### Barrier objects (R207 to R211) -/

/-- A field of a word. -/
def fld64 (v : Word) (lo n : Nat) : Nat := bits v lo n

/-- Word 0 of a barrier object from its fields. Log 99: bits [47:46] are written as zero. -/
def barWord (excess : Nat) (xdie ovr : Bool) (phase exp arr : Nat) : Word :=
  BitVec.ofNat 64 (excess % 2 ^ 16 * 2 ^ 48 + (if xdie then 2 ^ 45 else 0) + (if ovr then 2 ^ 44 else 0)
    + phase % 16 * 2 ^ 40 + exp % 2 ^ 20 * 2 ^ 20 + arr % 2 ^ 20)

/-- A token (R210). -/
def tokenOf (phase : Nat) (last err : Bool) : Word :=
  BitVec.ofNat 64 (phase % 16 + (if last then 16 else 0) + (if err then 32 else 0))

/-- Releases the BWTs queued on an object that a test lets go. -/
def State.releaseBwt (s : State) (h k : Nat) (go : BitVec 4 → Bool) : State :=
  (s.waitersOf h k).foldl (fun s r =>
    match r.op with
    | .bwt p => if go p then (s.dropWaiter h r).send h (coreOf r.cid) (.answer r none) else s
    | _ => s) s

/-- BINIT at the home (R209). -/
def State.homeInit (s : State) (h k : Nat) (b : Word) : State × Resp :=
  let w0 := barWord 0 (bit b 20) false 0 (bits b 0 20) 0
  match s.store k (leBytes 8 w0.toNat ++ leBytes 8 0) with
  | none => (s, .faulted 1 true)
  | some s => (s.releaseBwt h k (fun p => p != 0), .acked none)

/-- ARV and ARVP at the home (R210). -/
def State.homeArrive (s : State) (h k n die : Nat) (posted : Bool) : State × Resp :=
  match s.load k 16 with
  | none => s.lostRead k 16
  | some (_, s) =>
    let w0 := s.mem.word k
    let w1 := s.mem.word (k + 8)
    let phase := bits w0 40 4
    let exp := bits w0 20 20
    let arr := bits w0 0 20
    let answer (s : State) (t : Word) (c : Option Cause) : State × Resp :=
      if posted then (s, .acked c) else (s, .value t c)
    if !(bit w0 45) && die != dieOf h then
      if posted then (s, .faulted 1 false) else (s, .value (tokenOf phase false true) none)
    else
      let sum := arr + n
      if sum < exp then
        match s.store k (leBytes 8 (barWord (bits w0 48 16) (bit w0 45) (bit w0 44) phase exp sum).toNat) with
        | none => (s, .faulted 1 true)
        | some s => answer s (tokenOf phase false false) none
      else
        let excess := if exp < sum then min 0xFFFF (bits w0 48 16 + sum - exp) else bits w0 48 16
        let w0' := barWord excess (bit w0 45) (bit w0 44 || decide (exp < sum)) (phase + 1) exp 0
        let done := (bits w1 32 32 + 1) % 2 ^ 32
        let w1' := done * 2 ^ 32 + (lo32 (s.gtime h)).toNat
        match s.store k (leBytes 8 w0'.toNat ++ leBytes 8 w1') with
        | none => (s, .faulted 1 true)
        | some s => answer (s.releaseBwt h k (fun _ => true)) (tokenOf phase true false)
            (if exp < sum then some .barrierOverrun else none)

/-! ### Stores of agents that are no thread (R192, R233, R238, R249, R398) -/

/-- Requests of agents that are no context: hubs, schedulers, trace encoders. -/
def hostCid : Nat := 0x100000

/-- The requests of an agent whose writes nobody acknowledges to it. -/
def agentCid : Nat := hostCid + 0x1000

/-- The requests of a hub's posted writes, in the model's own function numbers, and of a core's trace encoder. -/
def postedCid (fn : Nat) : Nat := hostCid + 0x800 + fn
def traceCid (core : Nat) : Nat := agentCid + 1 + core

/-- The agent that a request comes from: the posted writes of a hub's functions come from one. -/
def agentGroup (cid : Nat) : Nat := if postedCid 0 ≤ cid && cid < agentCid then postedCid (cid % 2) else cid

/-- Agents whose stores are performed in the order in which they were made, wherever they go: a hub's posted writes and a core's
trace records (R249, R398). -/
def agentOrdered (cid : Nat) : Bool := decide (postedCid 0 ≤ cid) && cid != agentCid

/-- The homes whose slices hold a line. -/
def State.homesOf (s : State) (line : Nat) : List Nat :=
  (List.filter (fun (e : Nat × Core) => (e.2.dir.find line).isSome) s.cores).map (fun e => e.1)

/-- The homes of the lines of n bytes at a global key that still have copies or hold writes. -/
def State.busyHomes (s : State) (k n : Nat) : List (Nat × Nat) :=
  ((wordKeys k n).map lineOf).eraseDups.flatMap (fun line =>
    ((s.homesOf line).filter (fun h => !(dirOf (s.core h) line).free)).map (fun h => (h, line)))

/-- The homes ask for the copies of n bytes at a key, as before a write of any thread. -/
def State.recallAll (s : State) (k n : Nat) : State :=
  let s := (s.busyHomes k n).foldl (fun s e => s.recall e.1 e.2) s
  (wordKeys k n).foldl (fun s w =>
    if s.hostLines.contains (lineOf w) && !(s.backInvalidating (lineOf w)) then s.send ((s.homesOf (lineOf w)).headD 0) hubW (.backInval (lineOf w))
    else s) s

/-- No copy of n bytes at a key is left in the package, and no overflow holds writes of them; none with the host either, unless the
host itself writes. -/
def State.copiesGone (s : State) (cid k n : Nat) : Bool :=
  (s.busyHomes k n).isEmpty && (decide (cid < agentCid) || !((wordKeys k n).any (fun w => s.hostLines.contains (lineOf w))))

/-- An agent's store waits: the homes ask for the copies of its bytes, and record it where an overflow holds it (R238, R247). -/
def State.agentWaits (s : State) (k n : Nat) : State × Resp :=
  ((s.busyHomes k n).foldl (fun s e => if (dirOf (s.core e.1) e.2).ovf then s.overflowHeld e.1 e.2 else s) (s.recallAll k n), .held)

/-- An agent's bytes are written, and the slices that hold their line see it. -/
def State.agentPut (s : State) (k : Nat) (bs : List Byte) : Option State :=
  (s.store k bs).map (fun s => (s.homesOf (lineOf k)).foldl (fun s h => s.touch h k bs.length true) s)

/-- The launch word of a function holds a value, and the thread of its hub, which watches it, is told (R379). -/
def State.setLaunchw (s : State) (fn : Nat) (v : Word) : State :=
  (s.onFunc fn (fun f => { f with launchw := v })).onCtx ((if fn % 2 = 0 then hubW else hubW + 1) * 16) (fun c => { c with ready := true })

/-! ### Performing a request -/

/-- The value of a load of n bytes, extended (R180). -/
def loadValue (v n : Nat) (sx : Bool) : Word := if sx then sextW v (8 * n) else BitVec.ofNat 64 v

/-- Whether a request needs write permission on its page. -/
def needsWrite : ReqOp → Bool
  | .store .. | .stf _ | .sete | .setf | .reserve .. | .release _ | .binit _ | .arv .. => true
  | _ => false

/-- Bytes at offsets as runs of neighbours, in order. -/
def runsOf : List (Nat × Byte) → List (Nat × List Byte)
  | [] => []
  | (o, b) :: rest =>
    match runsOf rest with
    | (p, bs) :: more => if p = o + 1 then (o, b :: bs) :: more else (o, [b]) :: (p, bs) :: more
    | [] => [(o, [b])]

/-- Runs of bytes written at offsets from a key, each as one store. -/
def State.storeRuns (s : State) (h k : Nat) : List (Nat × List Byte) → Option State
  | [] => some s
  | (o, bs) :: rest =>
    match s.store (k + o) bs with
    | none => none
    | some s => State.storeRuns (s.touch h (k + o) bs.length true) h k rest

/-- STF at the home (R184): on a full scratchpad word it is queued, on a global word that is not reserved
it faults, else it writes and serves. -/
def State.homeStf (s : State) (h k : Nat) (r : Req) (v : Word) : State × Resp :=
  if s.full h k then
    if padKey k then s.queue h k r else (s, .faulted 1 false)
  else if !s.lineFree h k then s.clearLine h k
  else
    match s.store k (leBytes 8 v.toNat) with
    | none => (s, .faulted 1 true)
    | some s => ((s.touch h k 8 true).serve h k false, .acked none)

/-- LDF and the reserve of ATOM at the home (R184, R188). -/
def State.homeTake (s : State) (h k : Nat) (r : Req) : State × Resp :=
  if s.full h k then
    if s.resvRoom h k then
      match s.load k 8 with
      | none => s.lostRead k 8
      | some (v, s) =>
        let s := ((s.touch h k 8 false).setEmpty h k (isAtom r.op) (some r.tid)).reserveFor r.tid k
        (s.serveStf h k, .value (BitVec.ofNat 64 v) none)
    else (s, .refused)
  else s.queue h k r

/-- The thread that sent a request is still in its context. -/
def State.senderHere (s : State) (r : Req) : Bool := (s.ctx r.cid).holdsThread && (s.ctx r.cid).th.tid == r.tid

/-- WATCH at the home (R191): an entry of the watch table of 32, or the answer that it is full. The watches of a thread that has left
its context are gone, one on its way included. -/
def State.homeWatch (s : State) (h k : Nat) (r : Req) : State × Resp :=
  let c := s.core h
  let cid := r.cid
  if !s.senderHere r || c.watches.contains (k, cid) then (s, .answered (some 1))
  else if c.watches.length < Config.watchMax then
    (s.setCore h { c with watches := c.watches ++ [(k, cid)] }, .answered (some 1))
  else (s, .answered none)

/-- Performs a request at its memory key (R184, R188, R191, R193, R196, R198, R209 to R211). -/
def State.performAt (s : State) (h k : Nat) (r : Req) : State × Resp :=
  match r.op with
  | .load n sx =>
    match s.load k n with
    | none => s.lostRead k n
    | some (v, s) => (s.share h k n r.cid, .value (loadValue v n sx) none)
  | .prefetch => (s.share h k 32 r.cid, .acked none)
  | .store bs _ =>
    if hostCid ≤ r.cid then
      if !s.copiesGone r.cid k bs.length then s.agentWaits k bs.length
      else
        match s.agentPut k (bs.map (fun b => b.2)) with
        | none => (s, .faulted 1 true)
        | some s => (s, .acked none)
    else if !s.lineFree h k then s.clearLine h k
    else
      match s.storeRuns h k (runsOf bs) with
      | none => (s, .faulted 1 true)
      | some s => (s, .acked none)
  | .ldf | .claim => s.homeTake h k r
  | .ldff =>
    if s.full h k then
      match s.load k 8 with
      | none => s.lostRead k 8
      | some (v, s) => (s.touch h k 8 false, .value (BitVec.ofNat 64 v) none)
    else s.queue h k r
  | .stf v => s.homeStf h k r v
  | .reserve .. => s.homeTake h k r
  | .release v => s.homeStf h k r v
  | .sete =>
    if s.full h k then
      if padKey k then (((s.setEmpty h k false none).wakeWatchers k).serveStf h k, .acked none)
      else if s.resvRoom h k then
        (((s.setEmpty h k false (some r.tid)).reserveFor r.tid k).wakeWatchers k, .acked none)
      else (s, .refused)
    else (s.wakeWatchers k, .acked none)
  | .setf => if s.full h k then (s.wakeWatchers k, .acked none) else ((s.wakeWatchers k).serve h k false, .acked none)
  | .watch => s.homeWatch h k r
  | .unwatch =>
    (s.onCore h (fun c => { c with watches := c.watches.filter (fun w => w != (k, r.cid)) }), .acked none)
  | .waita =>
    match s.load k 8 with
    | none => s.lostRead k 8
    | some (v, s) => (s.touch h k 8 false, .answered (some (BitVec.ofNat 64 v)))
  | .flush => (s, .acked none)
  | .binit b => s.homeInit h k b
  | .arv n die posted => s.homeArrive h k n die posted
  | .bwt p =>
    match s.load k 8 with
    | none => s.lostRead k 8
    | some (_, s) =>
      if bits (s.mem.word k) 40 4 != p.toNat then (s, .answered none) else s.queue h k r
  | .msg => (s, .acked none)
  | .launch v => (s.setLaunchw (r.cid % 0x800) v, .acked none)

/-- A fault in an unmapped page of a growth range is held, and passed on to context 0 of the home core (R175, R232). -/
def State.grows (s : State) (r : Req) : Bool :=
  match rangeFor (s.rangesOf r.cid) (bits r.addr 0 48) with
  | some g => !isPad r.addr && g.stk
  | none => false

/-- The lowest page of a thread's stack slot, and what lies beyond the slot, are not grown (R175). -/
def State.slotGrows (s : State) (t : Thread) (va : Nat) : Bool :=
  match s.launch t.launch, t.slot with
  | some l, some n =>
    let size := l.stksize / 65536
    let base := l.stkbase.toNat + n * size
    decide (base + 65536 ≤ va) && decide (va < base + size)
  | _, _ => false

/-- The address of a request lies where its thread's stack grows. -/
def State.growable (s : State) (r : Req) : Bool := s.slotGrows (s.ctx r.cid).th (bits r.addr 0 48)

/-- STACK_GROWTH goes once to context 0 of the home core for an address (R175). -/
def State.growth (s : State) (h : Nat) (x : Word) : State :=
  if (s.core h).delegq.any (fun d => d.cause == .stackGrowth && d.detail == x)
      || (match (s.core h).presented with | some d => d.cause == .stackGrowth && d.detail == x | none => false) then s
  else s.supervise h .stackGrowth x

/-- The hub through which a home reaches coherent host memory (R249, R374; log 67). -/
def State.hubOf (s : State) (core : Nat) : Nat :=
  if s.whole then (if dieOf core % 4 < 2 then hubW else hubW + 1) else hubW + dieOf core / 2 % 2

/-- Requests that the host itself performs and acknowledges: loads and stores of its memory (R249). -/
def ReqOp.toHost : ReqOp → Bool
  | .load .. | .store .. => true
  | _ => false

/-- A HOME PERFORMS A REQUEST: a powered-down scratchpad refuses it (R58), translation may fail at the home
(R30, R233), and otherwise `performAt` acts. -/
def State.home (s : State) (h : Nat) (r : Req) : State × Resp :=
  if (match r.op with | .launch _ => true | _ => false) then s.performAt h r.key r
  else if padKey r.key then
    if (s.core h).powered then s.performAt h r.key r else (s, .faulted 1 false)
  else
    match s.translate r.key (needsWrite r.op) with
    | .ok k => if isHostKey k && !isHub h && r.op.toHost then (s, .passed (s.hubOf h)) else s.performAt h k r
    | .error fc =>
      match r.op with
      | .prefetch | .flush => (s, .acked none)
      | _ =>
        if fc = 0 && s.grows r && s.growable r then (s.growth h r.addr, .held)
        else (s, .faulted fc false)

/-! ### Answers on their way (R75, R177, R186, R237) -/

/-- Stores in an acknowledgement: those of a write-back. -/
def ReqOp.count : ReqOp → Nat
  | .store _ n => n
  | _ => 1

/-- Two requests of one thread, or of one agent. -/
def sameThread (a b : Req) : Bool := agentGroup a.cid == agentGroup b.cid && a.tid == b.tid

/-- A request that a home refuses, and every later one of its thread that the home has kept behind it or that is on its way there, wait
at their core to be sent again in their order (R186, R235). -/
def State.takeBack (s : State) (h : Nat) (r : Req) (kept : List Req := []) : State :=
  let mine (m : Msg) : Option Req :=
    match m.body with
    | .req q => if m.dst == h && m.src == coreOf r.cid && sameThread q r then some q else none
    | _ => none
  let back := r :: kept ++ s.net.filterMap mine
  { s with net := s.net.filter (fun m => (mine m).isNone) }.onCore (coreOf r.cid) (fun c =>
    { c with resends := back.map (fun q => (q, (⟨h, 0, false, false⟩ : Resend))) ++ c.resends })

/-- A home's answer goes to the issuing core; a request that it keeps, queues or passes on has none yet. -/
def State.answerReq (s : State) (h : Nat) (r : Req) (a : Resp) : State :=
  let tgt := coreOf r.cid
  if agentCid ≤ r.cid then s
  else
    match a with
    | .held | .queued | .passed _ => s
    | .value v c => s.send h tgt (.reply r v c)
    | .acked c => s.send h tgt (.ack r r.op.count c)
    | .answered v => s.send h tgt (.answer r v)
    | .faulted fc recon => s.send h tgt (.fault r fc recon)
    | .refused => (s.takeBack h r).send h tgt (.refuse r)

/-- A home has kept a request of the same thread, so that a later one stays behind it (R235). -/
def State.keptBefore (s : State) (h : Nat) (r : Req) : Bool :=
  (s.core h).helds.any (sameThread r) || (s.core h).hosted.any (sameThread r)

/-- A home keeps a request. -/
def State.keep (s : State) (h : Nat) (r : Req) : State := s.onCore h (fun c => { c with helds := c.helds ++ [r] })

/-- What follows a home's answer to a request that has reached it. -/
def State.homeTook (s : State) (h : Nat) (r : Req) (a : Resp) : State :=
  match a with
  | .held => s.keep h r
  | .passed hub => (s.onCore h (fun c => { c with hosted := c.hosted ++ [r] })).send h hub (.req r)
  | a => s.answerReq h r a

/-- A load that has missed while a home waits for the copies of its line to go, to perform a write of it: it stays behind the write,
so that it returns it or a later one (R258). A read during an overflow's hold is served (R247). -/
def State.writeAhead (s : State) (h : Nat) (r : Req) : Bool :=
  (match r.op with | .load .. | .prefetch => true | _ => false) && !padKey r.key
    && match s.translate r.key false with
      | .ok k =>
        let line := lineOf k
        !(dirOf (s.core h) line).ovf && (s.invalidating h line || s.backInvalidating line)
          && (s.core h).helds.any (fun w => needsWrite w.op && !padKey w.key && (s.phys w.key).map lineOf == some line)
      | .error _ => false

/-- A HOME TAKES a request that has reached it: performed at once, unless one of its thread is kept before it (R233, R235), or a write of
its line that a load is to see. -/
def State.homeTakes (s : State) (h : Nat) (r : Req) : State :=
  if s.keptBefore h r || s.writeAhead h r then s.keep h r
  else
    let a := s.home h r
    a.1.homeTook h r a.2

/-- A kept write still waits for context 0 to release its line (R247). -/
def State.stillHeld (s : State) (h : Nat) (r : Req) : Bool :=
  needsWrite r.op && !padKey r.key && (match s.translate r.key true with
    | .ok k => (dirOf (s.core h) (lineOf k)).ovf || (decide (hostCid ≤ r.cid)
      && (s.homesOf (lineOf k)).any (fun h => (dirOf (s.core h) (lineOf k)).ovf))
    | .error _ => false)

/-- The kept requests of a home in order: those that can be performed are; those behind a refused one of their thread go back with
it, in their order (R235). -/
def State.homeGoAll (s : State) (h : Nat) (out : List Req) : List Req → State
  | [] => s
  | r :: rest =>
    if out.any (sameThread r) then State.homeGoAll s h out rest
    else if s.stillHeld h r || s.keptBefore h r || s.writeAhead h r then State.homeGoAll (s.keep h r) h out rest
    else
      let a := s.home h r
      if a.2 == .refused then
        State.homeGoAll ((a.1.takeBack h r (rest.filter (sameThread r))).send h (coreOf r.cid) (.refuse r)) h (r :: out) rest
      else State.homeGoAll (a.1.homeTook h r a.2) h out rest

/-- A home goes through the requests that it has kept. -/
def State.homeGo (s : State) (h : Nat) : State :=
  let l := (s.core h).helds
  match l with
  | [] => s
  | _ :: _ => (s.onCore h (fun c => { c with helds := [] })).homeGoAll h [] l

/-- The stores of agents that are kept at a home or on their way to one, with that home, those of one agent oldest first. -/
def State.agentReqs (s : State) : List (Nat × Req) :=
  s.cores.flatMap (fun e => (List.filter (fun (r : Req) => decide (hostCid ≤ r.cid)) e.2.helds).map (fun r => (e.1, r)))
    ++ s.net.filterMap (fun m => match m.body with
      | .req r => if hostCid ≤ r.cid then some (m.dst, r) else none
      | _ => none)

/-- A home goes through what it has kept, and so does every home where a store of an agent waits: what that waits for may be at
another home. -/
def State.homesGo (s : State) (h : Nat) : State :=
  ((s.agentReqs.map (fun e => e.1)).eraseDups.filter (fun x => x != h)).foldl (fun s x => s.homeGo x) (s.homeGo h)

/-- The home at which an earlier store of the same agent waits, for one whose stores keep their order. -/
def State.agentBehind (s : State) (cid : Nat) : Option Nat :=
  if agentOrdered cid then (s.agentReqs.find? (fun e => agentGroup e.2.cid == agentGroup cid)).map (fun e => e.1) else none

/-- The home at which an agent's store of n bytes at a global key is to wait: behind an earlier one of the agent, or behind an earlier
one of any agent to its line. -/
def State.agentAhead (s : State) (cid k n : Nat) : Option Nat :=
  (s.agentBehind cid).or ((s.agentReqs.find? (fun e => match s.phys e.2.key with
    | some p => ((wordKeys k n).map lineOf).contains (lineOf p)
    | none => false)).map (fun e => e.1))

/-- An agent's store of n bytes at a key is performed at once: no copy is left of them, and no earlier store waits before it. -/
def State.agentFree (s : State) (cid k n : Nat) : Bool := padKey k || (s.copiesGone cid k n && (s.agentAhead cid k n).isNone)

/-- An agent's store at a memory key, at its home like any store: at once when no copy is left, else as a request that waits
at the home for them (R192, R233, R238, R247). `cid` is answered when it is the request of a function of the host. -/
def State.agentStore (s : State) (cid vk k : Nat) (bs : List Byte) : Option State :=
  let byHost := decide (cid < agentCid)
  let n := bs.length
  if padKey k then (if (s.core (padCore k)).powered then s.store k bs else none)
  else if s.agentFree cid k n then s.agentPut k bs
  else
    let h := (s.agentAhead cid k n).getD (((s.busyHomes k n).map (fun e => e.1)).headD ((s.homesOf (lineOf k)).headD 0))
    let s := if byHost then { s with hostLines := s.hostLines.filter (fun l => !((wordKeys k n).map lineOf).contains l) } else s
    let r : Req := ⟨cid, 0, 0, none, BitVec.ofNat 64 (vk % 2 ^ 48), vk, .store (bs.mapIdx (fun j b => (j, b))) 1, 0⟩
    some (s.send h h (.req r))

/-! ### The write-combining buffer (R237) -/

/-- The write-back of an entry. -/
def Wcb.toReq (e : Wcb) : Req := { e.req with key := e.line, op := .store e.bytes e.count }

/-- Sends a context's entries for one home, oldest first. -/
def State.flushWcb (s : State) (cid home : Nat) : State :=
  let core := coreOf cid
  let mine (e : Wcb) : Bool := e.cid == cid && e.home == home
  let es := (s.core core).wcb.filter mine
  let s := s.onCore core (fun c => { c with wcb := c.wcb.filter (fun e => !mine e) })
  es.foldl (fun s e => s.send core home (.req e.toReq)) s

/-- Sends every entry of a context. -/
def State.flushAll (s : State) (cid : Nat) : State :=
  ((s.core (coreOf cid)).wcb.map (fun e => e.home)).eraseDups.foldl (fun s h => s.flushWcb cid h) s

end Sys2Proof.Machine
end

