-- ==== Sys2Proof/Machine/Save.lean ====
section
/-! DEFINITION. The engine save area of a thread (R46, R54, R227, R300): the lowest 4 KiB of its stack slot, to which its live
vector, mask, descriptor and matrix configuration state is written and from which it is reloaded. The spec gives the area no
layout; the one here is the model's (log 68). -/

namespace Sys2Proof.Machine

open Sys2Proof

/-- The first byte of a thread's stack slot (R46). -/
def State.saveBase (s : State) (t : Thread) : Option Word :=
  match s.launch t.launch, t.slot with
  | some l, some n => if l.stksize = 0 then none else some (l.stkbase + BitVec.ofNat 64 (n * (l.stksize / 65536)))
  | _, _ => none

/-- Vector, mask, descriptor or matrix configuration state is live (R300, R302, R314), or lies in the save area. -/
def Thread.engineLive (t : Thread) : Bool := t.vlive || !t.descs.isEmpty || t.mat.live || t.saved

/-! ### The state as words -/

/-- Lanes 2k and 2k + 1 of vector register r, from its 64 lanes of 32 bits. -/
def Thread.vword (t : Thread) (n : Nat) : Word :=
  BitVec.ofNat 64 ((t.vreg.get (2 * n) 0).toNat + (t.vreg.get (2 * n + 1) 0).toNat * 2 ^ 32)

/-- A descriptor as 32 words; the first tells whether it is set. -/
def Desc.words : Option Desc → List Word
  | none => List.replicate 32 0
  | some d =>
    let flags := 1 + (if d.sbase.isSome then 2 else 0) + (if d.mcast.isSome then 4 else 0) + d.fmt % 16 * 2 ^ 4 + d.dev.toNat * 2 ^ 8
    let mc := d.mcast.getD (0, 0)
    [BitVec.ofNat 64 flags, d.base, d.sbase.getD 0, d.srow, BitVec.ofNat 64 (mc.1.toNat + mc.2.toNat * 2 ^ 16), 0, 0, 0]
      ++ (List.range 12).map (fun j => BitVec.ofNat 64 (d.size.get j 1)) ++ (List.range 12).map (fun j => d.stride.get j 0)

/-- The descriptor in 32 words. -/
def Desc.ofWords (ws : List Word) : Option Desc :=
  let w (n : Nat) : Word := ws.getD n 0
  if bit (w 0) 0 then
    let dims := (List.range 12).filter (fun j => w (8 + j) != 1 || w (20 + j) != 0)
    some
      { base := w 1
        dev := BitVec.ofNat 17 (bits (w 0) 8 17)
        fmt := bits (w 0) 4 4
        size := dims.map (fun j => (j, (w (8 + j)).toNat))
        stride := dims.map (fun j => (j, w (20 + j)))
        sbase := if bit (w 0) 1 then some (w 2) else none
        srow := w 3
        mcast := if bit (w 0) 2 then some (BitVec.ofNat 12 (bits (w 4) 0 12), BitVec.ofNat 12 (bits (w 4) 16 12)) else none }
  else none

/-- The matrix configuration but its staging slot as 49 words: a header, and three words for each of up to 16 planes. -/
def MatCfg.words (m : MatCfg) : List Word :=
  let ps := m.planes.take 16
  BitVec.ofNat 64 (m.fmt % 16 + (if m.sa then 2 ^ 4 else 0) + (if m.sw then 2 ^ 5 else 0) + (if m.live then 2 ^ 6 else 0)
      + m.prio % 256 * 2 ^ 8 + ps.length * 2 ^ 16)
    :: ps.flatMap (fun p => [BitVec.ofNat 64 (p.1 % 16 + (if p.2.1 then 2 ^ 4 else 0)), p.2.2.1, p.2.2.2])

/-- The matrix configuration in words, with a staging slot. -/
def MatCfg.ofWords (ws : List Word) (slot : Option MCmd) : MatCfg :=
  let h := ws.getD 0 0
  { fmt := bits h 0 4
    sa := bit h 4
    sw := bit h 5
    prio := bits h 8 8
    planes := (List.range (bits h 16 5)).map (fun k =>
      (bits (ws.getD (1 + 3 * k) 0) 0 4, bit (ws.getD (1 + 3 * k) 0) 4, ws.getD (2 + 3 * k) 0, ws.getD (3 + 3 * k) 0))
    slot := slot
    live := bit h 6 }

/-- The 441 words of a save area: v0 to v7, k0 to k3 and the vector state's liveness, d0 to d3, the matrix configuration. -/
def Thread.saveWords (t : Thread) : List Word :=
  (List.range 256).map t.vword ++ (List.range 4).map (fun n => t.kreg.get n 0) ++ [if t.vlive then 1 else 0, 0, 0, 0]
    ++ (List.range 4).flatMap (fun n => Desc.words (t.descs.find n)) ++ t.mat.words

/-- A thread whose engine state is that of a save area's words. -/
def Thread.reloaded (t : Thread) (ws : List Word) : Thread :=
  let v := ws.take 256
  { t with
    saved := false
    vreg := (List.range 512).filterMap (fun n =>
      let x : Word32 := BitVec.ofNat 32 (bits (v.getD (n / 2) 0) (n % 2 * 32) 32)
      if x = 0 then none else some (n, x))
    kreg := (List.range 4).filterMap (fun n => let x := ws.getD (256 + n) 0; if x = 0 then none else some (n, x))
    vlive := bit (ws.getD 260 0) 0
    descs := (List.range 4).filterMap (fun n => (Desc.ofWords ((ws.drop (264 + 32 * n)).take 32)).map (fun d => (n, d)))
    mat := MatCfg.ofWords (ws.drop 392) t.mat.slot }

/-- A thread without the engine state that its save area holds. -/
def Thread.unloaded (t : Thread) : Thread :=
  { t with
    saved := true
    vreg := []
    kreg := []
    vlive := false
    descs := []
    mat := ⟨0, false, false, 0, [], t.mat.slot, false⟩ }

/-! ### Saving and reloading -/

/-- The address space of a thread (R128). -/
def State.threadSpace (s : State) (t : Thread) : Nat := ((s.launch t.launch).map (fun l => l.asn)).getD 0

/-- Writes words from an address of a thread's space on, each at its home; one that has no place to go is not written. -/
def State.putWords (s : State) (space : Nat) (x : Word) : List Word → State
  | [] => s
  | w :: rest =>
    let s' := match s.translate (vkey space x) true with
      | .ok k => (s.agentStore agentCid (vkey space x) k (leBytes 8 w.toNat)).getD s
      | .error _ => s
    State.putWords s' space (x + 8) rest

/-- The word that the latest store of an agent to a virtual key will write, while that store waits at its home. -/
def State.coming (s : State) (vk : Nat) : Option Word :=
  (s.agentReqs.reverse.find? (fun e => e.2.key == vk)).bind (fun e => match e.2.op with
    | .store bs _ => some (BitVec.ofNat 64 (leNat (bs.map (fun b => b.2))))
    | _ => none)

/-- Reads n words of a save area from an address of a thread's space, after the stores to it that still wait; one that cannot be
read is 0. -/
def State.getWords (s : State) (space : Nat) (x : Word) : Nat → List Word
  | 0 => []
  | n + 1 =>
    ((s.coming (vkey space x)).getD (match s.translate (vkey space x) false with
      | .ok k => s.mem.word k
      | .error _ => 0)) :: State.getWords s space (x + 8) n

/-- SAVES live engine state into the thread's save area (R54, R227); without a slot the state stays with the thread. -/
def State.saveEngine (s : State) (t : Thread) : State × Thread :=
  if t.vlive || !t.descs.isEmpty || t.mat.live then
    match s.saveBase t with
    | some x => (s.putWords (s.threadSpace t) x t.saveWords, t.unloaded)
    | none => (s, t)
  else (s, t)

/-- RELOADS a thread's engine state from its save area (R54). -/
def State.reloadThread (s : State) (t : Thread) : Thread :=
  if t.saved then
    match s.saveBase t with
    | some x => t.reloaded (s.getWords (s.threadSpace t) x 441)
    | none => { t with saved := false }
  else t

/-- The running thread's engine state is back in its registers. -/
def State.reloadEngine (s : State) : State := if s.th.saved then s.withTh (fun t => s.reloadThread t) else s

end Sys2Proof.Machine
end

