-- ==== Sys2Proof/Machine/Travel.lean ====
section
/-! DEFINITION. Threads that leave and enter contexts: the power of scratchpad banks (R45, R57, R58),
admission and holding of arrivals (R53, R230), departure (R54, R55) and the counts of messages (R60). -/

namespace Sys2Proof.Machine

open Sys2Proof

/-- One more message of a launch sent by a core (R60). -/
def State.countSent (s : State) (core launch : Nat) : State :=
  s.onCore core (fun c => { c with sent := c.sent.set launch (c.sent.get launch 0 + 1) })

/-- One more message of a launch received by a core (R60). -/
def State.countRecv (s : State) (core launch : Nat) : State :=
  s.onCore core (fun c => { c with recv := c.recv.set launch (c.recv.get launch 0 + 1) })

/-- Every certified or performed result drains into the register store. -/
def Ctx.drainAll (c : Ctx) : Ctx :=
  let c := c.applyWaves
  { (c.landing.foldl Ctx.drainEntry c) with landing := [] }

/-- The thread of a context with its registers in the store. -/
def State.threadOf (s : State) (cid : Nat) : Thread := (s.ctx cid).drainAll.th

/-- Gives a new thread a name of its own (log 66). -/
def State.nameThread (s : State) (t : Thread) : State × Thread :=
  ({ s with named := s.named + 1 }, { t with tid := s.named + 1 })

/-- Entries of a core's thread-context cache in use, those reserved for migrations in flight included (R53). -/
def Core.cacheUsed (c : Core) : Nat := c.cache.length + c.inflight

/-- A late value of a context is still on its way to the foot (R75, R76). -/
def State.lateComing (s : State) (cid : Nat) : Bool := (s.core (coreOf cid)).late.any (fun l => l.cid == cid)

/-- A late fault is to be taken at the context's boundary (R221, R222). -/
def Ctx.lateDue (c : Ctx) : Bool := !c.faults.isEmpty && !c.th.inTrap

/-- The drains that travel waits for (R54), with no fault or reply cause of theirs to be taken first (R215), and a cache entry
for the migration (R53). -/
def State.mayDepart (s : State) (cid : Nat) : Bool :=
  let c := s.ctx cid
  c.unack == 0 && c.outld == 0 && s.outv cid == 0 && s.outcp cid == 0 && s.outmx cid == 0
    && !s.lateComing cid && !c.lateDue && c.replies.isEmpty
    && decide ((s.core (coreOf cid)).cacheUsed < Config.cacheMax)

/-- The registers of a travel mask; the others arrive as zero (R54). -/
def maskRegs (g : Tab Word) (mask : BitVec 16) : Tab Word :=
  List.filter (fun (e : Nat × Word) => mask.getLsbD e.1) g

/-- THE THREAD DEPARTS (R54, R55): live engine state goes to its save area, its watches go, its migration is counted as sent, its
context is offered, and the message carries what travels; a migration for the X extension carries the whole context. -/
def State.depart (s : State) (cid tgt : Nat) (mask : BitVec 16) (whole : Bool) : State :=
  let core := coreOf cid
  let t := s.threadOf cid
  let (s, t) := if whole then (s, t) else s.saveEngine { t with gpr := maskRegs t.gpr mask }
  let c := s.ctx cid
  let p : Parked := ⟨t, .arrival, 0, c.seq, c.asyncs, c.faults, c.replies⟩
  let s := s.note cid 0x5 (s.ctx cid).seqNow t.pc (BitVec.ofNat 64 tgt) 6
  let s := s.dropWatches cid
  let s := (s.countSent core t.launch).onCore core (fun c => { c with inflight := c.inflight + 1 })
  (s.send core tgt (.migrate p)).free cid

/-- Travel by an instruction: its context's buffered stores are sent (R237), it waits for its drains, then departs; the thread
goes on at the instruction at its destination, or after it (R54). A migration for the X extension launches a kill wave (R80). -/
def State.travel (s0 : State) (i : Instr) (x : Word) (tgt : Nat) (mask : BitVec 16) (whole after : Bool) : Out State :=
  let s := s0.flushAll s0.cur
  if s.th.engineLive && s.th.slot.isNone && !whole then s0.raise .badAddress x
  else if s.mayDepart s.cur then
    if after then
      if s.sigFails i false then s.raise .signature (s.sigDetail i false)
      else
        let g := s.sigAfter i false
        let s' := if s.th.sig.en then s.withTh (fun t => { t with sig := g }) else s
        .next ((s'.advance i (nextPc s.th.pc)).depart s.cur tgt mask whole)
    else
      .next ((if whole then s.wave s.cur (s.seqNow - 1) s.th.pc else s).depart s.cur tgt mask whole)
  else s.waitFor (.depart tgt mask whole after)

/-- The X-migration table (R55). -/
def xRow : Nat → List Nat
  | 0 => [4, 1, 3, 6]
  | 2 => [6, 1, 3, 4]
  | 5 => [1, 4, 6, 3]
  | 7 => [3, 6, 1, 4]
  | _ => []

/-- Vacant contexts of a core among 1 to 15. -/
def State.vacancies (s : State) (core : Nat) : Nat :=
  (((List.range 15).map (fun k => core * 16 + k + 1)).filter (fun cid =>
    (s.ctx cid).run == .vacant && (s.ctx cid).reserved.isNone)).length

/-- The cores of a die in increasing number. -/
def coresOfDie (die : Nat) : List Nat :=
  (List.range 16).flatMap (fun y => (List.range 24).map (fun x => die * 512 + y * 32 + x))

/-- The core of a die with the most vacant contexts, ties to the lowest number. -/
def State.roomiest (s : State) (die : Nat) : Nat :=
  (coresOfDie die).foldl (fun best c => if s.vacancies best < s.vacancies c then c else best) (die * 512)

/-- Where an X instruction on a core without X sends its thread, or none in a partition without X (R55). -/
def State.xTarget (s : State) (core : Nat) : Option Nat :=
  let ok := (xRow (dieOf core)).filter (fun d => (diesOfPart (s.partOf (dieOf core))).contains d && !s.offDies.contains d)
  match (ok.find? (fun d => (coresOfDie d).any (fun c => decide (0 < s.vacancies c)))).or ok.head? with
  | none => none
  | some d => some (s.roomiest d)

end Sys2Proof.Machine
end

