-- ==== Sys2Proof/Machine/Window.lean ====
section
/-! DEFINITION. The windows of context 0: the diagnostic windows of a core (R248) and the sepia window (R351). -/

namespace Sys2Proof.Machine

open Sys2Proof

/-- A word of the parity bank of a group: the XOR of the row's data words less the updates still queued (R248, R253). -/
def State.parityWord (s : State) (core g row : Nat) : Word :=
  let words := (List.range 4).map (fun k => s.mem.word (padAt core ((row * 16 + g * 4 + k) * 8)))
  let q := (groupOf (s.core core) g).queue.filter (fun e => e.1 == row)
  (words ++ q.map (fun e => e.2.1)).foldl (· ^^^ ·) 0

/-- The XOR of a row's full-empty bits less the updates still queued, and whether the row is stale (R248). -/
def State.parityBits (s : State) (core g row : Nat) : Word :=
  let gr := groupOf (s.core core) g
  let fe := (List.range 4).map (fun k => s.full core (padAt core ((row * 16 + g * 4 + k) * 8)))
  let q := (gr.queue.filter (fun e => e.1 == row)).map (fun e => e.2.2)
  let x := (fe ++ q).foldl (fun a b => a != b) false
  BitVec.ofNat 64 ((if x then 1 else 0) + (if gr.stale row then 2 else 0))

/-- The words of directory line index n (R248): line address, overflow bit and sharer count; sharer codes,
0x01E for an empty pointer. -/
def State.dirWords (s : State) (core n : Nat) : Word × Word :=
  match (s.core core).dir[n]? with
  | none => (0, BitVec.ofNat 64 (0x01E * (1 + 2 ^ 12 + 2 ^ 24 + 2 ^ 36)))
  | some (line, d) =>
    let code (k : Nat) : Nat := (d.sharers[k]?).getD 0x01E
    (BitVec.ofNat 64 ((line - globalBase) + (if d.ovf then 8 else 0) + d.sharers.length),
     BitVec.ofNat 64 (code 0 + code 1 * 2 ^ 12 + code 2 * 2 ^ 24 + code 3 * 2 ^ 36))

/-- An overflow record as a word (R248). -/
def ovfWord (e : Nat × Bool × Nat) : Word :=
  BitVec.ofNat 64 (e.1 % 4096 * 2 ^ 52 + (if e.2.1 then 2 ^ 51 else 0) + (e.2.2 - globalBase) % 2 ^ 48)

/-- Pops the oldest overflow record of a core, 0 when there is none. -/
def State.popOverflow (s : State) (core : Nat) : Word × State :=
  match (s.core core).ovfq with
  | [] => (0, s)
  | e :: rest => (ovfWord e, s.onCore core (fun c => { c with ovfq := rest }))

/-- A write of a line is held: one of a thread or an agent, or a copy's (R247). -/
def State.lineHeld (s : State) (core line : Nat) : Bool :=
  let on (r : Req) : Bool := needsWrite r.op && !padKey r.key && (s.phys r.key).map lineOf == some line
  (dirOf (s.core core) line).told || (s.core core).helds.any on || s.agentReqs.any (fun e => on e.2)

/-- Releases the held writes of a line: its overflow bit is cleared, and the home performs them in the order held, once the
recorded sharers have acknowledged (R238, R247). Where none is held there is nothing to release (log 47). -/
def State.releaseHeld (s : State) (core line : Nat) : State :=
  if s.lineHeld core line then (s.onLine core line (fun d => { d with ovf := false, told := false })).homesGo core else s

/-- A sepia record as its 64 bytes show it (R338). -/
def recWord (r : SRec) (k : Nat) : Word :=
  match k with
  | 0 => ofAddr r.routine
  | 1 => r.handle
  | 2 => r.stamp
  | 7 => BitVec.ofNat 64 (r.core * 2 ^ 52 + r.ctx * 2 ^ 48 + (if r.failed then 8 else 0)
      + (if r.skipped then 4 else 0) + (if r.done then 2 else 0) + (if r.valid then 1 else 0))
  | k => (r.args[k - 3]?).getD 0

/-- The sepia window of a die (R351): the region, what froze a domain, and the free slots. -/
def State.sepiaWindow (s : State) (die sel off : Nat) : Option Word :=
  let d := s.die die
  if sel = 0 then some (match d.sepia.find (off / 64) with | some r => recWord r (off % 64 / 8) | none => 0)
  else if sel = 1 then
    let fr := (s.dies.flatMap (fun e => e.2.doms.filterMap (fun x => x.2.frozen))).find? (fun f => f.1 == die)
    if off = 0 then some (match fr with | some (_, slot, _) => BitVec.ofNat 64 (2 ^ 63 + slot) | none => 0)
    else if off = 8 then some (match fr with | some (_, _, st) => st | none => 0)
    else if off = 0x10 then some (BitVec.ofNat 64
      ((Config.sepiaMax - (List.filter (fun (x : Nat × SRec) => !x.2.spare) d.sepia).length) % 2 ^ 18))
    else none
  else none

/-- An 8-byte load of a window of the running context 0; `none` is BAD_ADDRESS (R248, R351). -/
def State.windowLoad (s : State) (x : Word) : Option (Word × State) :=
  if bits x 40 8 = 0xFE then
    if bits x 35 5 = 0 then (s.sepiaWindow (bits x 32 3) (bits x 24 8) (bits x 0 24)).map (fun w => (w, s)) else none
  else
    let off := bits x 0 32
    match bits x 32 8 with
    | 0 =>
      let g := off / 0x10000
      let row := off % 0x10000 / 16
      if 4 ≤ g then none
      else if off % 16 = 0 then some (s.parityWord s.here g row, s) else some (s.parityBits s.here g row, s)
    | 1 =>
      if 1024 ≤ off / 16 then none
      else
        let p := s.dirWords s.here (off / 16)
        some (if off % 16 = 0 then p.1 else p.2, s)
    | 3 => if off = 0 then some (s.popOverflow s.here) else none
    | _ => none

end Sys2Proof.Machine
end

