-- ==== Sys2Proof/Machine/Request.lean ====
section
/-! DEFINITION. The issuing core's side of memory operations: address checks (R31, R59, R180), requests to
homes and their answers (R75, R177, R186), the write-combining buffer and the L1 (R237, R238), posted
operations and their acknowledgements. -/

namespace Sys2Proof.Machine

open Sys2Proof

/-! ### Addresses -/

/-- A displacement of n-byte units (R11, R180). -/
def disp10 (i : BitVec 10) (n : Nat) : Word := BitVec.ofInt 64 (i.toInt * n)

/-- The cause of an access of n bytes at an address aligned to `al`, if it has one: MISALIGNED before
BAD_ADDRESS (R31, R59, R180, R244). -/
def State.addrFault (s : State) (x : Word) (n al : Nat) : Option Cause :=
  if x.toNat % al != 0 then some .misaligned
  else if s.badAddr s.cur x || s.hitsRing s.cur x n then some .badAddress
  else none

/-- A request of the running packet. -/
def State.req (s : State) (x : Word) (op : ReqOp) (reg : Option (Fin 16)) : Req :=
  ⟨s.cur, s.th.tid, s.seqNow, reg, x, vkey (s.asnOf s.cur) x, op, 0⟩

/-- Two records of one operation. -/
def sameReq (a b : Req) : Bool := a.cid == b.cid && a.seq == b.seq && a.addr == b.addr && a.op == b.op

/-! ### The write-combining buffer (R237) -/

/-- Sends the oldest entry, with the entries of its context and home before it. -/
def State.flushOldest (s : State) (core : Nat) : State :=
  match (s.core core).wcb with
  | [] => s
  | e :: _ => s.flushWcb e.cid e.home

/-- Merges bytes at offsets into an entry's bytes; a later store replaces an earlier byte. -/
def mergeBytes (old new : List (Nat × Byte)) : List (Nat × Byte) :=
  old.filter (fun e => !(new.any (fun f => f.1 == e.1))) ++ new

/-- A global store enters the buffer (R237): it joins its line's entry or takes a free one, the oldest entry
going out first when none is free; a wholly written line goes out at once. -/
def State.combine (s : State) (home : Nat) (r : Req) (bs : List Byte) : State :=
  let core := coreOf r.cid
  let line := r.key / 32 * 32
  let new := bs.mapIdx (fun k b => (r.key % 32 + k, b))
  let s := if (s.core core).wcb.any (fun e => e.cid == r.cid && e.line == line) || decide ((s.core core).wcb.length < Config.wcbMax)
    then s else s.flushOldest core
  let l := (s.core core).wcb
  let l := if l.any (fun e => e.cid == r.cid && e.line == line) then
      l.map (fun e => if e.cid == r.cid && e.line == line then
        { e with bytes := mergeBytes e.bytes new, count := e.count + 1 } else e)
    else l ++ [⟨r.cid, home, line, new, 1, r⟩]
  let s := s.onCore core (fun c => { c with wcb := l })
  if l.any (fun e => e.cid == r.cid && e.line == line && e.bytes.length == 32) then s.flushWcb r.cid home else s

/-- The bytes of a context's own buffered stores, when they hold all n bytes of a key (R237). -/
def State.buffered (s : State) (cid k n : Nat) : Option Nat :=
  match (s.core (coreOf cid)).wcb.find? (fun e => e.cid == cid && e.line == k / 32 * 32) with
  | none => none
  | some e =>
    let at_ (j : Nat) : Option Byte := (e.bytes.find? (fun b => b.1 == k % 32 + j)).map (fun b => b.2)
    if (List.range n).all (fun j => (at_ j).isSome) then
      some (leNat ((List.range n).map (fun j => (at_ j).getD 0)))
    else none

/-! ### Requests in flight -/

/-- Sends a request to a home, every buffered store of its context for that home ahead of it (R237). -/
def State.request (s : State) (h : Nat) (r : Req) : State :=
  (s.flushWcb r.cid h).send (coreOf r.cid) h (.req r)

/-- An address of the running context's own scratchpad. -/
def State.ownPad (s : State) (x : Word) : Bool := isPad x && bits x 19 12 == s.here

/-- An operation of a context to a home is on its way there, or the home has kept it. -/
def State.onWay (s : State) (cid h : Nat) : Bool :=
  (s.core h).helds.any (fun r => r.cid == cid) || (s.core h).hosted.any (fun r => r.cid == cid)
    || s.net.any (fun m => m.src == coreOf cid && m.dst == h && (match m.body with
      | .req r => r.cid == cid
      | _ => false))

/-- No operation of the running context to its own core as a home is on its way or buffered, so that the next may be performed
(R235). -/
def State.ownFree (s : State) : Bool := !((s.core s.here).wcb.any (fun e => e.cid == s.cur && e.home == s.here)) && !s.onWay s.cur s.here

/-- The running context's own scratchpad, with no operation of the context to that home still on its way
(R235): its core performs the request at once, unless the step is one that sends it (log 54). -/
def State.direct (s : State) (x : Word) : Bool := s.ownPad x && s.ownFree && !s.slow

/-- Loads and stores go to the memory siding, which performs those of the own scratchpad while their packet stands at stage 6 (R181,
R183). -/
def ReqOp.inSiding : ReqOp → Bool
  | .load .. | .store .. => true
  | _ => false

/-- A load or store of the own scratchpad stands at stage 6 until the earlier operations to that home are performed. -/
def State.sidingWaits (s : State) (x : Word) (op : ReqOp) : Bool := op.inSiding && s.ownPad x && !s.ownFree

/-- The home of an address of the running context. -/
def State.homeNow (s : State) (x : Word) : Nat := (s.homeOf s.cur x).getD s.here

/-- The packet waits at stage 6 for the answer to its request (R75). -/
def State.bayWait (s : State) (i : Instr) (r : Req) : Out State :=
  .next (s.withMe (fun c => { c with bay := some (i, r), run := .waiting .reply }))

/-- A posted operation enters UNACK (R177). -/
def State.post (s : State) (r : Req) : State :=
  s.onCtx r.cid (fun c => { c with posted := c.posted ++ [r] })

/-- KIND of a scoreboard entry for a request (R218). -/
def kindOf (r : Req) : Nat :=
  match r.op with
  | .load .. | .ldf | .ldff | .reserve .. | .arv _ _ false => if isPad r.addr then 4 else 3
  | _ => if isPad r.addr then 2 else 1

/-- The faulted operation of a request (R218, R221). -/
def faultedOf (r : Req) (fc : Nat) : Faulted :=
  ⟨kindOf r, fc, (match kindOf r with | 3 | 4 => r.reg | _ => none), r.seq, r.addr, .req r⟩

/-- A late fault for a request that has left stage 6 (R221). -/
def State.lateFault (s : State) (r : Req) (fc : Nat) : State := s.reportFault r.cid (faultedOf r fc)

/-- A request that its home refused (R186): resent after 32 cycles doubling to 4,096, at most FERETRY times; after one more
refusal its context is to park at its next boundary until a store is performed on the word. The request of a thread that is
gone is resent when it is a posted one, and dropped otherwise (R228). -/
def State.refusedReq (s : State) (dst : Nat) (r : Req) : State :=
  let gone := (s.ctx r.cid).th.tid != r.tid
  let park := !gone && decide ((s.ctx r.cid).th.feretry.toNat < r.tries + 1)
  let wait : Resend := ⟨dst, min 4096 (32 * 2 ^ r.tries), park, true⟩
  let s := s.onCore (coreOf r.cid) (fun c =>
    { c with resends := c.resends.filterMap (fun e =>
        if e.2.told || !(sameThread e.1 r && e.2.dst == dst) then some e
        else if sameReq e.1 r then (if gone && !r.op.isPosted then none else some ({ e.1 with tries := r.tries + 1 }, wait))
        else some (e.1, wait)) })
  if park then s.onCtx r.cid (fun c => { c with parkDue := some .watch, ready := false }) else s

/-- A request that the core's own home refused at once. -/
def State.refusedHere (s : State) (r : Req) : State := (s.takeBack (coreOf r.cid) r).refusedReq (coreOf r.cid) r

/-- A destination field as a general register, if it is one. -/
def gReg : Reg → Option (Fin 16)
  | .g n => some n
  | _ => none

/-- Writes a general register if there is one. -/
def State.setReg (s : State) (r : Option (Fin 16)) (v : Word) : State :=
  match r with
  | some n => s.setG n v
  | none => s

/-- The packet leaves stage 6 late: a late marker, one more in OUTLD (R75). -/
def State.leaveLate (s : State) (r : Req) : State :=
  let s := match r.reg with
    | some n => s.markLate r.cid r.seq n
    | none => s
  s.onCtx r.cid (fun c => { c with lates := c.lates ++ [r.seq] })

/-- The base of page-translation causes at stage 6: PAGE_FAULT for FC 0, else ACCESS_FAULT (R183, R406). -/
def fcCause (fc : Nat) : Cause := if fc = 0 then .pageFault else .accessFault

/-- What follows the answer that the core's own home gave at once to an operation with a destination. -/
def State.settled (s : State) (i : Instr) (r : Req) (a : State × Resp) : Out State :=
  match a.2 with
  | .value v c =>
    let s' := a.1.setReg r.reg v
    let s' := match c with
      | some c => s'.withMe (fun m => { m with replies := m.replies ++ [(c, r.addr)] })
      | none => s'
    s.done i s'
  | .faulted fc recon =>
    if recon then a.1.raise .reconstruct r.addr else s.done i ((a.1.leaveLate r).lateFault r fc)
  | .refused => (a.1.refusedHere r).bayWait i r
  | _ => a.1.bayWait i r

/-- What follows the answer of the core's own home to a posted operation; one that is queued or refused
stays in UNACK (R177, R181). -/
def State.settledPost (s : State) (i : Instr) (r : Req) (a : State × Resp) : Out State :=
  match a.2 with
  | .faulted fc recon =>
    if recon then a.1.raise .reconstruct r.addr else s.done i ((a.1.post r).lateFault r fc)
  | .acked (some c) => s.done i (a.1.withMe (fun m => { m with replies := m.replies ++ [(c, r.addr)] }))
  | .refused => s.done i ((a.1.post r).refusedHere r)
  | .queued | .held => s.done i (a.1.post r)
  | _ => s.done i a.1

/-- Issues an operation with a destination at an address that has passed its checks (R180, R184, R210). -/
def State.issue (s : State) (i : Instr) (reg : Option (Fin 16)) (x : Word) (op : ReqOp) : Out State :=
  let r := s.req x op reg
  if Config.outldMax ≤ s.me.outld then s.waitFor .late
  else if s.direct x || (s.ownPad x && op.inSiding && s.ownFree) then s.settled i r (s.home s.here r)
  else if s.sidingWaits x op then (s.flushWcb s.cur s.here).waitFor (.order s.here)
  else (s.request (s.homeNow x) r).bayWait i r

/-- Issues a posted operation at an address that has passed its checks (R177, R184, R198). -/
def State.issuePost (s : State) (i : Instr) (x : Word) (op : ReqOp) : Out State :=
  let r := s.req x op none
  if Config.unackMax ≤ s.me.unack then s.waitFor .posted
  else if s.direct x || (s.ownPad x && op.inSiding && s.ownFree) then s.settledPost i r (s.home s.here r)
  else if s.sidingWaits x op then (s.flushWcb s.cur s.here).waitFor (.order s.here)
  else s.done i ((s.post r).request (s.homeNow x) r)

/-- Every write-back that the core has begun is acknowledged: the global stores in UNACK of its contexts are
all still in the buffer (R195). -/
def State.wbDrained (s : State) (core : Nat) : Bool :=
  (List.range 16).all (fun n =>
    let cid := core * 16 + n
    let posted := (s.ctx cid).posted.filter (fun r => !isPad r.addr && (match r.op with | .store .. => true | _ => false))
    let held := ((s.core core).wcb.filter (fun e => e.cid == cid)).foldl (fun n e => n + e.count) 0
    decide (posted.length ≤ held))

/-- Scopes at which a release and a FENCE also wait for the write-backs of the core (R182, R195). -/
def Scope.drains : Scope → Bool
  | .th | .co | .cl => false
  | _ => true

/-- What a release at a scope waits for (R182, R210): `none` when nothing is left to wait for. -/
def State.releaseWait (s : State) (c : Scope) : Option Wait :=
  if s.me.outld != 0 || s.outst s.cur != 0 then some (.counts 0 0 15 15)
  else if Scope.drains c && !s.wbDrained s.here then some .fence
  else none

/-- Sends what a release makes due, then goes on when nothing is left to wait for. -/
def State.releasing (s : State) (c : Scope) (k : State → Out State) : Out State :=
  let s := s.flushAll s.cur
  match s.releaseWait c with
  | some w => s.waitFor w
  | none => k s

/-- Whether an instruction is an acquire, whose value holds younger memory operations (R182, R189, R211). -/
def isAcquire : Instr → Bool
  | .ld _ _ _ o _ _ | .ldx _ _ _ o _ _ => o
  | .ldf _ _ o _ _ | .ldff _ _ o _ _ => o
  | .faa _ _ _ o _ | .fxch _ _ _ o _ | .fcas _ _ _ o _ | .fmin _ _ _ o _ | .fmax _ _ _ o _
  | .fand _ _ _ o _ | .forA _ _ _ o _ | .fxor _ _ _ o _ => o
  | _ => false

/-- The operands of a memory instruction in general registers: waits for late values and for an acquire that
left late (R74, R182). -/
def State.ready2 (s : State) (a b : Reg) : Option Wait :=
  match s.lateReg a, s.lateReg b with
  | some n, _ => some (.operand n)
  | none, some n => some (.operand n)
  | none, none => if s.me.barred.isSome then some .ordered else none

/-- An instruction without an address that accesses memory in the sense of R182 waits for an acquire that left late. -/
def State.ordered (s : State) (o : Out State) : Out State := if s.me.barred.isSome then s.waitFor .ordered else o

/-- An operation to a home stays behind an ATOM of its context to that home until the release, and behind a refused request
until it has been resent (R186, R189, R235). -/
def State.orderHeld (s : State) (cid h : Nat) : Bool :=
  (s.core (coreOf cid)).atoms.any (fun a => a.cid == cid && a.home == h)
    || (s.core (coreOf cid)).resends.any (fun e => e.1.cid == cid && e.2.dst == h)

/-- Goes on once nothing holds an operation of the running context to the home of an address. -/
def State.inOrder (s : State) (x : Word) (k : State → Out State) : Out State :=
  if s.orderHeld s.cur (s.homeNow x) then s.waitFor (.order (s.homeNow x)) else k s

/-- A block that an instruction reads at the home of an address, as a load: after the context's earlier operations to that home (R235). -/
def State.atHome (s : State) (x : Word) (k : State → Out State) : Out State :=
  let h := s.homeNow x
  let s := s.flushWcb s.cur h
  if s.orderHeld s.cur h || s.onWay s.cur h then s.waitFor (.order h) else k s

/-- An access of the running thread's stack that its home holds until context 0 there has mapped the page (R175). -/
def State.growsNow (s : State) (x : Word) : Bool := let r := s.req x .prefetch none; s.grows r && s.growable r

/-- The precise cause of an access that the instruction itself makes, at its address; a page of a growing stack is only waited for. -/
def State.raiseAt (s : State) (c : Cause) (x : Word) : Out State :=
  if c == .pageFault && s.growsNow x then (s.growth (s.homeNow x) x).waitFor (.page x) else s.raise c x

/-- A checked access: operands ready, then the cause of the address or the rest (R180). -/
def State.access (s : State) (a b : Reg) (x : Word) (n al : Nat) (k : State → Out State) : Out State :=
  match s.ready2 a b with
  | some w => s.waitFor w
  | none =>
    match s.addrFault x n al with
    | some c => s.raise c x
    | none => s.inOrder x k

/-- The same for an access that travels (R180, R181): a thread whose page travels goes to the home first. -/
def State.accessTravel (s : State) (i : Instr) (a b : Reg) (x : Word) (n al : Nat) (k : State → Out State) : Out State :=
  s.access a b x n al (fun s =>
    if s.travels s.cur x && s.homeNow x != s.here then s.travel i x (s.homeNow x) s.th.migmask false false
    else k s)

end Sys2Proof.Machine
end

