-- ==== Sys2Proof/Machine/Memory.lean ====
section
/-! DEFINITION. Loads and stores, full-empty instructions and atomics (majors 0x20 to 0x26; R180 to R189). -/

namespace Sys2Proof.Machine

open Sys2Proof

/-- Bytes of a size (R10). -/
def sizeBytes : Size → Nat
  | .b => 1 | .h => 2 | .w => 4 | .d => 8

/-- The n bytes at an address that a copy holds: the line in the core's L1, else its die's replica (R238, R246). -/
def State.copyOf (s : State) (x : Word) (n : Nat) : Option (List Byte) :=
  if isPad x then none
  else
    let k := vkey (s.asnOf s.cur) x
    match (s.core s.here).l1.find? (fun l => l.key == k / 32 * 32) with
    | some l => some ((l.bytes.drop (k % 32)).take n)
    | none => (s.phys k).bind (fun p =>
      (s.replica (dieOf s.here) (lineOf p)).map (fun r => (r.bytes.drop (p % 256)).take n))

/-- A line enters an L1 of 512 sets of four ways; the oldest line of its full set leaves (R23, R25; log 47). -/
def addLine (l : List L1Line) (x : L1Line) : List L1Line :=
  let l := l.filter (fun y => y.key != x.key)
  let mine := l.filter (fun y => y.key / 32 % Config.l1Sets == x.key / 32 % Config.l1Sets)
  (if mine.length < Config.l1Ways then l else match mine with
    | [] => l
    | y :: _ => l.erase y) ++ [x]

/-- The L1 of a core takes the 32-byte line of a virtual key that a replica of its die supplies, if one does (R246). -/
def State.fromReplica (s : State) (core k : Nat) : State :=
  match s.phys k with
  | none => s
  | some p =>
    match s.replica (dieOf core) (lineOf p) with
    | none => s
    | some r =>
      (s.onCore (replicaCore (dieOf core) (lineOf p)) (fun c =>
        { c with reps := c.reps.set (lineOf p) { r with sharers := if r.sharers.contains core then r.sharers else r.sharers ++ [core] } })).onCore
        core (fun c => { c with l1 := addLine c.l1 ⟨k / 32 * 32, (r.bytes.drop (p % 256 / 32 * 32)).take 32⟩ })

/-- An operation of the running context to a home is not performed yet, so that no later one may be (R235). -/
def State.pendingTo (s : State) (h : Nat) : Bool :=
  s.me.posted.any (fun r => s.homeOf s.cur r.addr == some h) || s.onWay s.cur h
    || (s.core s.here).resends.any (fun e => e.1.cid == s.cur && e.2.dst == h)

/-- A load at a checked address: from the context's own buffered bytes, from a copy of the line, or at its
home (R181, R237, R238). Log 93: one that the die's replica serves is answered at once, and reports no delay. -/
def State.loadAt (s : State) (i : Instr) (t : Reg) (x : Word) (n : Nat) (sx : Bool) : Out State :=
  let k := vkey (s.asnOf s.cur) x
  match (if isPad x then none else s.buffered s.cur k n) with
  | some v => s.done i (s.setReg (gReg t) (loadValue v n sx))
  | none =>
    let hit := match (if s.pendingTo (s.homeNow x) then .error 0 else s.translate k false) with
      | .ok _ => s.copyOf x n
      | .error _ => none
    match hit with
    | some bs =>
      let s' := if (s.core s.here).l1.any (fun l => l.key == k / 32 * 32) then s else s.fromReplica s.here k
      s.done i (s'.setReg (gReg t) (loadValue (leNat bs) n sx))
    | none => s.issue i (gReg t) x (.load n sx)

/-- LD and LDX (R180 to R183); in context 0 an address in a window reads the window (R248, R351). -/
def loadInstr (i : Instr) (t a : Reg) (z : Size) (d : BitVec 10) (sx : Bool) (s : State) : Out State :=
  let n := sizeBytes z
  let x := s.plain a + disp10 d n
  match s.ready2 a .zr with
  | some w => s.waitFor w
  | none =>
    if isWindow s.cur x && x.toNat % n == 0 then
      match (if n = 8 then s.windowLoad x else none) with
      | some (v, s') => s.done i (s'.setReg (gReg t) v)
      | none => s.raise .badAddress x
    else s.accessTravel i a .zr x n n (fun s => s.loadAt i t x n sx)

/-- LD (R180). -/
def execLd (t a : Reg) (z : Size) (o : Bool) (c : Scope) (d : BitVec 10) (s : State) : Out State :=
  loadInstr (.ld t a z o c d) t a z d false s
/-- LDX (R180). -/
def execLdx (t a : Reg) (z : Size) (o : Bool) (c : Scope) (d : BitVec 10) (s : State) : Out State :=
  loadInstr (.ldx t a z o c d) t a z d true s

/-- A store of bytes at a checked address: performed at once in the own scratchpad, posted to a remote
scratchpad, combined for global memory (R181, R237). -/
def State.storeAt (s : State) (i : Instr) (x : Word) (bs : List Byte) : Out State :=
  let op : ReqOp := .store (bs.mapIdx (fun k b => (k, b))) 1
  if isPad x then s.issuePost i x op
  else if Config.unackMax ≤ s.me.unack then s.waitFor .posted
  else
    let r := s.req x op none
    s.done i ((s.post r).combine (s.homeNow x) r bs)

/-- A store of context 0 to a window (R248): an invalidation of a line, or the release of a held write. -/
def State.windowStore (s : State) (i : Instr) (x v : Word) : Out State :=
  let off := bits x 0 32
  let line := globalBase + bits v 0 48 / 256 * 256
  if bits x 40 8 = 0xFF && bits x 32 8 = 2 then
    let r : Req := { s.req x (.store [] 1) none with key := line }
    if Config.unackMax ≤ s.me.unack then s.waitFor .posted
    else s.done i ((s.post r).sendInval s.here (off / 8 % 4096) line true)
  else if bits x 40 8 = 0xFF && bits x 32 8 = 3 && off == 8 then s.done i (s.releaseHeld s.here line)
  else s.raise .badAddress x

/-- ST (R180 to R183). -/
def execSt (t a : Reg) (z : Size) (o : Bool) (c : Scope) (d : BitVec 10) (s : State) : Out State :=
  let i : Instr := .st t a z o c d
  let n := sizeBytes z
  let x := s.plain a + disp10 d n
  let v := s.plain t
  match s.ready2 a t with
  | some w => s.waitFor w
  | none =>
    if isWindow s.cur x && x.toNat % n == 0 then
      if n = 8 then s.windowStore i x v else s.raise .badAddress x
    else
      s.accessTravel i a t x n n (fun s =>
        if o then s.releasing c (fun s => s.storeAt i x (leBytes n v.toNat))
        else s.storeAt i x (leBytes n v.toNat))

/-- The reservation list is full (R242). -/
def State.resvFull (s : State) : Bool := decide (Config.resvMax ≤ s.th.resv.length)

/-- LDF (R184, R185). -/
def execLdf (t a : Reg) (o : Bool) (c : Scope) (d : BitVec 10) (s : State) : Out State :=
  let x := s.plain a + disp10 d 8
  s.accessTravel (.ldf t a o c d) a .zr x 8 8 (fun s =>
    if s.resvFull then s.raise .badAddress x else s.issue (.ldf t a o c d) (gReg t) x .ldf)

/-- LDFF (R184, R185). -/
def execLdff (t a : Reg) (o : Bool) (c : Scope) (d : BitVec 10) (s : State) : Out State :=
  let x := s.plain a + disp10 d 8
  s.accessTravel (.ldff t a o c d) a .zr x 8 8 (fun s => s.issue (.ldff t a o c d) (gReg t) x .ldff)

/-- STF (R184, R185); with .rel it is sent when a release may be (R182). -/
def execStf (t a : Reg) (o : Bool) (c : Scope) (d : BitVec 10) (s : State) : Out State :=
  let x := s.plain a + disp10 d 8
  let v := s.plain t
  s.accessTravel (.stf t a o c d) a t x 8 8 (fun s =>
    if o then s.releasing c (fun s => s.issuePost (.stf t a o c d) x (.stf v))
    else s.issuePost (.stf t a o c d) x (.stf v))

/-! ### Atomics (R188, R189) -/

/-- The new value of the part that an ATOM acts on, at width n (R188). -/
def atomPart {n : Nat} (fn : AtomFn) (v r c : BitVec n) : BitVec n :=
  match fn with
  | .add => v + r
  | .xchg => r
  | .cas => if v == c then r else v
  | .min => if v.sle r then v else r
  | .max => if v.sle r then r else v
  | .and => v &&& r
  | .or => v ||| r
  | .xor => v ^^^ r

/-- The word released and the value returned, from the word reserved (R188): .d acts on the whole word, .w on
the half at the address, whose other half is unchanged. -/
def atomResult (fn : AtomFn) (wide high : Bool) (old r c : Word) : Word × Word :=
  if wide then (atomPart fn old r c, old)
  else if high then
    (atomPart fn (hi32 old) (lo32 r) (lo32 c) ++ lo32 old, sextLow (hi32 old))
  else
    (hi32 old ++ atomPart fn (lo32 old) (lo32 r) (lo32 c), sextLow (lo32 old))

/-- The part of the word that an orphaned reserve returns (R188). -/
def atomOld (wide high : Bool) (old : Word) : Word := if wide then old else sextLow (if high then hi32 old else lo32 old)

/-- The sequences of a context's vector stores that are not performed (R177). -/
def State.vstores (s : State) (cid : Nat) : List (BitVec 8) :=
  ((s.core (coreOf cid)).vq.filter (fun v => v.cid == cid && isVStore v.i)).map (fun v => v.seq)

/-- The release half of an ATOM may be sent: the reserve has been granted, and what an acquiring one's release waits for is done
(R182, R189), and UNACK has room for it (R177). Once its thread is gone it waits for nothing of the thread's. -/
def State.releaseDue (s : State) (a : AtomOp) : Bool :=
  let c := s.ctx a.cid
  a.release.isSome && (!a.writes || s.wbDrained (coreOf a.cid))
    && (c.th.tid != a.tid || decide (c.unack < Config.unackMax))
    && (c.th.tid != a.tid || (a.posts.all (fun r => !c.posted.any (sameReq r)) && a.lates.all (fun q => !c.lates.contains q)
      && a.stores.all (fun q => !(s.vstores a.cid).contains q)))

/-- Sends the release half of an ATOM, or performs it in the core's own scratchpad; it counts in UNACK from here on (R189). -/
def State.sendRelease (s : State) (home : Nat) (q : Req) (counted : Bool) : State :=
  let posted (s : State) : State := if counted then s.post q else s
  if isPad q.addr && home == coreOf q.cid then
    let b := s.home home q
    match b.2 with
    | .acked _ => b.1
    | .refused => (posted b.1).refusedHere q
    | .faulted fc _ => if counted then (posted b.1).lateFault q fc else b.1
    | _ => posted b.1
  else (posted s).request home q

/-- Sends the releases of a core's ATOMs that may be sent. -/
def State.releasesDue (s : State) (core : Nat) : State :=
  (s.core core).atoms.foldl (fun s a =>
    if s.releaseDue a then
      let s := s.onCore core (fun c => { c with atoms := c.atoms.filter (fun b => b != a) })
      match a.release with
      | some q => s.sendRelease a.home q.1 q.2
      | none => s
    else s) s

/-- The reserve of an ATOM has been answered: its release is ready to go, or none follows an orphaned or faulted one (R188). -/
def State.atomAnswered (s : State) (r : Req) (release : Option (Req × Bool)) : State :=
  let mine (a : AtomOp) : Bool := a.cid == r.cid && a.tid == r.tid && a.seq == r.seq
  (s.onCore (coreOf r.cid) (fun c =>
    { c with atoms := match release with
        | some q => c.atoms.map (fun a => if mine a then { a with release := some q } else a)
        | none => c.atoms.filter (fun a => !mine a) })).releasesDue (coreOf r.cid)

/-- An ATOM whose word lies in the core's own scratchpad: the home grants the reserve at once, or the packet waits (R188). -/
def State.atomLocal (s : State) (i : Instr) (r : Req) (fn : AtomFn) (wide high : Bool) (opnd cmp : Word) : Out State :=
  let a := s.home s.here r
  match a.2 with
  | .value v none =>
    let p := atomResult fn wide high v opnd cmp
    s.done i ((a.1.setReg r.reg p.2).atomAnswered r (some ({ r with op := .release p.1, reg := none }, true)))
  | .faulted .. => s.settled i r (a.1.atomAnswered r none, a.2)
  | _ => s.settled i r a

/-- ATOM (R188, R189): a reserve, a compute and a release at the word that holds a. The reserve goes at once; with .acq the release
waits for the operations of the thread that are on their way now. -/
def atomInstr (i : Instr) (fn : AtomFn) (t a : Reg) (wide o : Bool) (c : Scope) (u : Reg) (s : State) : Out State :=
  let x := s.plain a
  let n := if wide then 8 else 4
  let w : Word := BitVec.ofNat 64 (x.toNat / 8 * 8)
  let high := bit x 2
  let opnd := s.plain t
  let cmp := s.plain u
  match s.lateReg u with
  | some m => s.waitFor (.operand m)
  | none =>
    s.accessTravel i a t x n n (fun s =>
      if s.resvFull then s.raise .badAddress x
      else if Config.unackMax ≤ s.me.unack then s.waitFor .posted
      else if Config.outldMax ≤ s.me.outld then s.waitFor .late
      else
        let s := if o then s.flushAll s.cur else s
        let r := { s.req w (.reserve fn wide high opnd cmp) (gReg t) with addr := x }
        let op : AtomOp := ⟨s.cur, s.th.tid, s.seqNow, s.homeNow x, none, if o then s.me.posted else [], if o then s.me.lates else [],
          if o then s.vstores s.cur else [], o && Scope.drains c⟩
        let s1 := s.onCore s.here (fun c => { c with atoms := c.atoms ++ [op] })
        if s.direct x then s1.atomLocal i r fn wide high opnd cmp
        else (s1.request (s.homeNow x) r).bayWait i r)

/-- FAA (R188). -/
def execFaa (t a : Reg) (z o : Bool) (c : Scope) (s : State) : Out State :=
  atomInstr (.faa t a z o c) .add t a z o c .zr s
/-- FXCH (R188). -/
def execFxch (t a : Reg) (z o : Bool) (c : Scope) (s : State) : Out State :=
  atomInstr (.fxch t a z o c) .xchg t a z o c .zr s
/-- FCAS (R188): slot c is register t + 1. -/
def execFcas (t a : Reg) (z o : Bool) (c : Scope) (s : State) : Out State :=
  atomInstr (.fcas t a z o c) .cas t a z o c (regSucc t) s
/-- FMIN (R188). -/
def execFmin (t a : Reg) (z o : Bool) (c : Scope) (s : State) : Out State :=
  atomInstr (.fmin t a z o c) .min t a z o c .zr s
/-- FMAX (R188). -/
def execFmax (t a : Reg) (z o : Bool) (c : Scope) (s : State) : Out State :=
  atomInstr (.fmax t a z o c) .max t a z o c .zr s
/-- FAND (R188). -/
def execFand (t a : Reg) (z o : Bool) (c : Scope) (s : State) : Out State :=
  atomInstr (.fand t a z o c) .and t a z o c .zr s
/-- FOR (R188). -/
def execForA (t a : Reg) (z o : Bool) (c : Scope) (s : State) : Out State :=
  atomInstr (.forA t a z o c) .or t a z o c .zr s
/-- FXOR (R188). -/
def execFxor (t a : Reg) (z o : Bool) (c : Scope) (s : State) : Out State :=
  atomInstr (.fxor t a z o c) .xor t a z o c .zr s

end Sys2Proof.Machine
end

