-- ==== Sys2Proof/Machine/Control.lean ====
section
/-! DEFINITION. Branches, jumps, ALIGN, the signature openers and the iteration fetcher (majors 0x10 to 0x1B;
R52, R86, R140 to R147). -/

namespace Sys2Proof.Machine

open Sys2Proof

/-! ### Branches and jumps (R140 to R142) -/

/-- PC + 4 × disp. -/
def target {n : Nat} (pc : Addr48) (d : BitVec n) : Addr48 := pc + (d.signExtend 48 <<< 2)

/-- A conditional branch (R140). -/
def branch (i : Instr) (a b : Reg) (d : BitVec 16) (rel : Word → Word → Bool) (s : State) : Out State :=
  s.withOps a b .zr (fun s' x y =>
    let go := rel x y
    s.complete i go (if go then target s.th.pc d else nextPc s.th.pc) s')

/-- BEQ (R140). -/
def execBeq (a b : Reg) (i : BitVec 16) (s : State) : Out State := branch (.beq a b i) a b i (fun x y => x == y) s
/-- BNE (R140). -/
def execBne (a b : Reg) (i : BitVec 16) (s : State) : Out State := branch (.bne a b i) a b i (fun x y => x != y) s
/-- BLT (R140). -/
def execBlt (a b : Reg) (i : BitVec 16) (s : State) : Out State := branch (.blt a b i) a b i (fun x y => x.slt y) s
/-- BGE (R140). -/
def execBge (a b : Reg) (i : BitVec 16) (s : State) : Out State := branch (.bge a b i) a b i (fun x y => !x.slt y) s
/-- BLTN (R140). -/
def execBltn (a b : Reg) (i : BitVec 16) (s : State) : Out State := branch (.bltn a b i) a b i (fun x y => x.ult y) s
/-- BGEN (R140). -/
def execBgen (a b : Reg) (i : BitVec 16) (s : State) : Out State := branch (.bgen a b i) a b i (fun x y => !x.ult y) s

/-- J (R141). -/
def execJ (i : BitVec 26) (s : State) : Out State := s.complete (.j i) true (target s.th.pc i) s
/-- JAL (R141): g14 := PC + 4. -/
def execJal (i : BitVec 26) (s : State) : Out State :=
  s.complete (.jal i) true (target s.th.pc i) (s.setG 14 (ofAddr (nextPc s.th.pc)))

/-- A jump to a checked register address, with an optional link (R142). -/
def jumpReg (i : Instr) (d a : Reg) (s : State) : Out State :=
  s.withOps a .zr .zr (fun s' t _ =>
    if bits t 0 2 != 0 then s.raise .misaligned t
    else if bit t 63 || bits t 48 15 != 0 then s.raise .badAddress t
    else s.complete i true (toAddr t) (s'.put d (ofAddr (nextPc s.th.pc))))

/-- JR (R142). -/
def execJr (a : Reg) (s : State) : Out State := jumpReg (.jr a) .zr a s
/-- JALR (R142). -/
def execJalr (d a : Reg) (s : State) : Out State := jumpReg (.jalr d a) d a s

/-! ### ALIGN (R86, R143) -/

/-- The contexts of a cluster. -/
def ctxsOfCluster (cl : Nat) : List Nat :=
  (coresOfCluster cl).flatMap (fun c => (List.range 16).map (fun k => c * 16 + k))

/-- A context holds an ALIGN at an address. -/
def Ctx.holdsAlign (c : Ctx) (pc : Addr48) : Bool :=
  c.th.pc == pc && (match c.run with
    | .waiting (.align _) => true
    | _ => false)

/-- The other contexts of a context's launch and cluster. -/
def State.siblings (s : State) (cid : Nat) : List Nat :=
  (ctxsOfCluster (clusterOf (coreOf cid))).filter (fun k =>
    k != cid && ctxOf k != 0 && (s.ctx k).th.launch == (s.ctx cid).th.launch)

/-- Every other runnable context of the launch in the cluster holds an ALIGN at the same address (R86). -/
def State.alignMet (s : State) (cid : Nat) : Bool :=
  (s.siblings cid).all (fun k =>
    let c := s.ctx k
    match c.run with
    | .runnable => false
    | .waiting (.align _) => c.th.pc == (s.ctx cid).th.pc
    | _ => true)

/-- Releases every context that holds an ALIGN at the address of a context (R86). -/
def State.alignGo (s : State) (cid : Nat) : State :=
  let pc := (s.ctx cid).th.pc
  (cid :: s.siblings cid).foldl (fun s k =>
    s.onCtx k (fun c => if c.holdsAlign pc then { c with run := .runnable, answered := true } else c)) s

/-- A context holds its ALIGN at the foot; with its siblings there, all of them are released (R86). -/
def State.alignHold (s : State) (cid n : Nat) : State :=
  let t := s.onCtx cid (fun c => { c with run := .waiting (.align n), parkedAt := (s.core (coreOf cid)).cyc })
  if s.alignMet cid then t.alignGo cid else t

/-- A held ALIGN is released: its siblings are there, or its cycles have passed (R86). -/
def State.alignOver (s : State) (cid n : Nat) : Bool :=
  s.alignMet cid || decide ((s.ctx cid).parkedAt + n ≤ (s.core (coreOf cid)).cyc)

/-- ALIGN (R143): held until its siblings arrive or n cycles pass, then a packet with no effect. -/
def execAlign (n : BitVec 16) (s : State) : Out State :=
  if n = 0 || s.me.answered then s.done (.align n) s
  else
    let t := s.alignHold s.cur n.toNat
    if t.me.answered then s.done (.align n) t else .next t

/-! ### BSIG and BSIGT (R144) -/

/-- BSIG (R144): opens a checked block when SIGCTL.EN is 1. -/
def execBsig (e : BitVec 16) (s : State) : Out State :=
  let s' := if s.th.sig.en then
      s.withTh (fun t => { t with sig := { t.sig with isOpen := true, crc := 0xFFFF, n := 0, e0 := e, e1 := e, last := [] } })
    else s
  .next (s'.advance (.bsig e) (nextPc s.th.pc))

/-- BSIGT (R144): the taken end's value, before any packet of the block is counted. -/
def execBsigt (e : BitVec 16) (s : State) : Out State :=
  let g := s.th.sig
  let s' := if g.en && g.isOpen && g.n == 0 then s.withTh (fun t => { t with sig := { t.sig with e1 := e } }) else s
  .next (s'.advance (.bsigt e) (nextPc s.th.pc))

/-! ### The iteration fetcher (R52, R145 to R147) -/

/-- A field read as at least 1 (R52). -/
def atLeast1 (n : Nat) : Nat := if n = 0 then 1 else n

/-- The descriptor's fields from its 64 bytes (R52). -/
def nestOf (m : Memory) (k : Nat) (old : Nest) : Nest :=
  { old with
    active := true
    ctr := m.word k
    n := (m.word (k + 8)).toNat
    e0 := m.nat (k + 0x10) 4
    e1 := m.nat (k + 0x14) 4
    e2 := m.nat (k + 0x18) 4
    e3 := m.nat (k + 0x1C) 4
    p := m.nat (k + 0x20) 4
    minc := m.nat (k + 0x24) 4 }

/-- The outcome of a claim from the counter's value, and the value stored back (R52). -/
def claimOf (c n p minc : Nat) : Option (Nat × Nat) × Nat :=
  if n ≤ c then (none, c)
  else
    let p := atLeast1 p
    let k := max (atLeast1 minc) ((n - c + p - 1) / p)
    let e := min (c + k) n
    (some (c, e), e)

/-- ix0 to ix3 of an iteration (R52). -/
def unpackIx (f : Nest) (i : Nat) : Tab Word :=
  let e0 := atLeast1 f.e0
  let e1 := atLeast1 f.e1
  let e2 := atLeast1 f.e2
  let e3 := atLeast1 f.e3
  [(0, BitVec.ofNat 64 (i % e0)), (1, BitVec.ofNat 64 (i / e0 % e1)),
   (2, BitVec.ofNat 64 (i / (e0 * e1) % e2)), (3, BitVec.ofNat 64 (i / (e0 * e1 * e2) % e3))]

/-- Changes the fetcher of the running thread. -/
def State.setNest (s : State) (f : Nest → Nest) : State := s.withTh (fun t => { t with nest := f t.nest })

/-- The fetcher writes ix0 to ix3 for an iteration, with no result packet (R52, R114): no body instruction has been injected yet
(R147). -/
def State.setIx (s : State) (f : Nest) (i : Nat) : State := s.withTh (fun t => { t with ix := unpackIx f i })

/-- The fetcher enters a chunk. -/
def State.enterChunk (s : State) (f : Nest) (c e : Nat) : State :=
  (s.setNest (fun _ => { f with i := c, stop := e })).setIx f c

/-- The claim of the packet being performed is used. -/
def State.useClaim (s : State) (ctr : Word) : List Claim :=
  s.th.nest.claims.filter (fun q => !(q.pc == s.th.pc && q.ctr == ctr))

/-- The outcome of the claim of a counter that the packet being performed has made, if it is back (R79, R83). -/
def State.claimOut (s : State) (ctr : Word) : Option (Option (Nat × Nat)) :=
  (s.th.nest.claims.find? (fun q => q.pc == s.th.pc && q.ctr == ctr)).bind (fun q => q.out)

/-- The packet being performed has made a claim of a counter that is not back yet. -/
def State.claimOpen (s : State) (ctr : Word) : Bool :=
  s.th.nest.claims.any (fun q => q.pc == s.th.pc && q.ctr == ctr && q.out.isNone)

/-- The memory key of an address for a use of the fetcher, or the precise cause (R146). -/
def State.fetcherKey (s : State) (x : Word) (write : Bool) : Except Cause Nat :=
  match s.translate (vkey (s.asnOf s.cur) x) write with
  | .ok k => if padKey k && !(s.core (padCore k)).powered then .error .accessFault else .ok k
  | .error fc => .error (fcCause fc)

/-- Makes a claim at the counter's home (R52): at once when the home is the own core and the word is full,
else by an LDF that the home answers; the outcome then waits in the fetcher. -/
def State.claim (s : State) (i : Instr) (ctr : Word) (n p minc : Nat) (k : State → Out State) : Out State :=
  let r := s.req ctr .claim none
  let noted (s : State) (out : Option (Option (Nat × Nat))) : State :=
    s.setNest (fun f => { f with claims := f.claims ++ [⟨s.th.pc, r.seq, ctr, n, p, minc, out⟩] })
  if s.direct ctr then
    let a := s.home s.here r
    match a.2 with
    | .value v _ =>
      let (out, back) := claimOf v.toNat n p minc
      let b := a.1.home s.here { r with op := .stf (BitVec.ofNat 64 back) }
      k (noted b.1 (some out))
    | .faulted fc recon => a.1.raise (if recon then .reconstruct else fcCause fc) ctr
    | .refused => (noted (a.1.refusedHere r) none).bayWait i r
    | _ => (noted a.1 none).bayWait i r
  else (noted (s.request (s.homeNow ctr) r) none).bayWait i r

/-- NEST once its claim is made: the body with the chunk's first iteration, or past the body (R146). -/
def State.nestGo (s : State) (i : Instr) (f : Nest) (d : BitVec 16) : Out State :=
  let f := { f with claims := s.useClaim f.ctr }
  match s.claimOut f.ctr with
  | some (some (c, e)) => s.complete i false (nextPc s.th.pc) (s.enterChunk f c e)
  | _ => s.complete i true (target s.th.pc d) (s.setNest (fun _ => { f with active := false }))

/-- NEST (R146). -/
def execNest (a : Reg) (i : BitVec 16) (s : State) : Out State :=
  let ins : Instr := .nest a i
  let x := s.plain a
  s.access a .zr x 64 64 (fun s =>
    s.atHome x (fun s =>
      match s.fetcherKey x false with
      | .error c => s.raiseAt c x
      | .ok k =>
        match s.load k 64 with
        | none => (s.misread k 64).raise .reconstruct x
        | some (_, s) =>
          let f := nestOf s.mem k s.th.nest
          if f.ctr.toNat % 8 != 0 then s.raise .misaligned f.ctr
          else if s.badAddr s.cur f.ctr then s.raise .badAddress f.ctr
          else
            match s.fetcherKey f.ctr true with
            | .error c => s.raiseAt c f.ctr
            | .ok _ =>
              if (s.claimOut f.ctr).isSome then s.nestGo ins f i
              else if s.claimOpen f.ctr then s.waitFor .reply
              else s.claim ins f.ctr f.n f.p f.minc (fun s => s.nestGo ins f i)))

/-- NEXT once its claim is made (R147). -/
def State.nextGo (s : State) (i : Instr) (d : BitVec 16) : Out State :=
  let f := { s.th.nest with claims := s.useClaim s.th.nest.ctr }
  match s.claimOut f.ctr with
  | some (some (c, e)) => s.complete i true (target s.th.pc d) (s.enterChunk f c e)
  | _ => s.complete i false (nextPc s.th.pc) (s.setNest (fun _ => { f with active := false }))

/-- NEXT (R147). -/
def execNext (i : BitVec 16) (s : State) : Out State :=
  let ins : Instr := .next i
  let f := s.th.nest
  if !f.active then s.complete ins false (nextPc s.th.pc) s
  else if f.i + 1 < f.stop then
    s.complete ins true (target s.th.pc i)
      ((s.setNest (fun f => { f with i := f.i + 1 })).setIx f (f.i + 1))
  else if s.me.barred.isSome then s.waitFor .ordered
  else if (s.claimOut f.ctr).isSome then s.nextGo ins i
  else if s.claimOpen f.ctr then s.waitFor .reply
  else
    match s.fetcherKey f.ctr true with
    | .error c => s.raiseAt c f.ctr
    | .ok _ => s.claim ins f.ctr f.n f.p f.minc (fun s => s.nextGo ins i)

end Sys2Proof.Machine
end

