-- ==== Sys2Proof/Machine/Flags.lean ====
section
/-! DEFINITION. IEEE formats, rounding and the flags of FPFLAGS (R265 to R270, R286, R287): every result is computed
from exact integers and rounded once. -/

namespace Sys2Proof.Machine

open Sys2Proof

/-! ### Formats and values (R265) -/

/-- A binary format: exponent bits and fraction bits. -/
structure Fmt where
  e : Nat
  f : Nat
  deriving DecidableEq, Repr

def bf16 : Fmt := ⟨8, 7⟩
def fp32 : Fmt := ⟨8, 23⟩
def fp64 : Fmt := ⟨11, 52⟩

/-- Width, bias and smallest normal exponent. -/
def Fmt.width (m : Fmt) : Nat := 1 + m.e + m.f
def Fmt.bias (m : Fmt) : Nat := 2 ^ (m.e - 1) - 1
def Fmt.emin (m : Fmt) : Int := 1 - (m.bias : Int)

/-- A decoded value: a NaN keeps its bits; a finite one is ± m × 2^e. -/
inductive Fp where
  | nan (bits : Nat)
  | inf (s : Bool)
  | fin (s : Bool) (m : Nat) (e : Int)
  deriving DecidableEq, Repr

/-- The sign bit as a number. -/
def Fmt.sign (m : Fmt) (s : Bool) : Nat := if s then 2 ^ (m.e + m.f) else 0

/-- ±Inf, the largest finite number, and the default NaN (R265). -/
def Fmt.inf (m : Fmt) (s : Bool) : Nat := m.sign s + (2 ^ m.e - 1) * 2 ^ m.f
def Fmt.big (m : Fmt) (s : Bool) : Nat := m.inf s - 1
def Fmt.nan (m : Fmt) : Nat := (2 ^ m.e - 1) * 2 ^ m.f + 2 ^ (m.f - 1)

/-- Decodes bits. -/
def Fmt.get (m : Fmt) (b : Nat) : Fp :=
  let b := b % 2 ^ m.width
  let s := decide (2 ^ (m.e + m.f) ≤ b)
  let x := b / 2 ^ m.f % 2 ^ m.e
  let f := b % 2 ^ m.f
  if x = 2 ^ m.e - 1 then (if f = 0 then .inf s else .nan b)
  else if x = 0 then .fin s f (m.emin - m.f)
  else .fin s (f + 2 ^ m.f) ((x : Int) - m.bias - m.f)

/-- A NaN with its top fraction bit clear. -/
def Fmt.signalling (m : Fmt) (b : Nat) : Bool := b / 2 ^ (m.f - 1) % 2 = 0

/-- A NaN quieted. -/
def Fmt.quiet (m : Fmt) (b : Nat) : Nat := if m.signalling b then b + 2 ^ (m.f - 1) else b

/-- The payload: the fraction without its top bit (R268). -/
def Fmt.payload (m : Fmt) (b : Nat) : Nat := b % 2 ^ (m.f - 1)

/-! ### Flags (R267) -/

/-- The five flags. -/
abbrev Flags := BitVec 5

def nv : Flags := 16
def dz : Flags := 8
def ovf : Flags := 4
def udf : Flags := 2
def nx : Flags := 1

/-- A result and its flags. -/
abbrev Res := Nat × Flags

/-- NV for a signalling operand. -/
def Fmt.snv (m : Fmt) (v : Fp) : Flags :=
  match v with
  | .nan b => if m.signalling b then nv else 0
  | _ => 0

/-! ### Rounding -/

/-- Whether the magnitude rounds up: remainder r of a unit of 2^k, a sticky bit, the last kept bit (R266). -/
def roundsUp (rm : BitVec 2) (s : Bool) (kept r k : Nat) (st : Bool) : Bool :=
  let half := if k = 0 then 1 else 2 ^ (k - 1)
  let inexact := r != 0 || st
  match rm.toNat with
  | 0 => if k = 0 then false else decide (half < r) || (r == half && (st || kept % 2 == 1))
  | 1 => false
  | 2 => s && inexact
  | _ => !s && inexact

/-- Rounds ± (q + δ) × 2^e, with 0 < δ < 1 exactly when `st`, to a multiple of 2^lsb: the multiple and whether it is
inexact. -/
def roundAt (rm : BitVec 2) (s : Bool) (q : Nat) (e : Int) (st : Bool) (lsb : Int) : Nat × Bool :=
  let sh := (lsb - e).toNat
  let q := q * 2 ^ (e - lsb).toNat
  let kept := q / 2 ^ sh
  let r := q % 2 ^ sh
  (kept + (if roundsUp rm s kept r sh st then 1 else 0), r != 0 || st)

/-- ROUNDS ± (q + δ) × 2^e once to a format: overflow by the mode, subnormals, UF for a result tiny after rounding and
inexact (R265, R267). -/
def Fmt.round (m : Fmt) (rm : BitVec 2) (s : Bool) (q : Nat) (e : Int) (st : Bool) : Res :=
  if q = 0 && !st then (m.sign s, 0)
  else
    let top : Int := e + (bitlen q : Int) - 1
    let free := roundAt rm s q e st (top - m.f)
    let tiny := decide ((if free.1 = 2 ^ (m.f + 1) then top + 1 else top) < m.emin)
    let lsb : Int := max (top - m.f) (m.emin - m.f)
    let (k, inexact) := roundAt rm s q e st lsb
    let (k, lsb) := if k = 2 ^ (m.f + 1) then (2 ^ m.f, lsb + 1) else (k, lsb)
    let x := lsb + m.f + m.bias
    if (2 ^ m.e : Int) - 1 ≤ x && decide (2 ^ m.f ≤ k) then
      let toInf := match rm.toNat with
        | 0 => true
        | 1 => false
        | 2 => s
        | _ => !s
      (if toInf then m.inf s else m.big s, ovf ||| nx)
    else
      let bits := if k < 2 ^ m.f then k else x.toNat * 2 ^ m.f + (k - 2 ^ m.f)
      (m.sign s + bits, (if inexact then nx else 0) ||| (if tiny && inexact then udf else 0))

/-- Rounds a signed multiple of 2^e that is not zero. -/
def Fmt.roundInt (m : Fmt) (rm : BitVec 2) (z : Int) (e : Int) : Res := m.round rm (decide (z < 0)) z.natAbs e false

/-- Rounds ± num / den once; den is not zero. -/
def Fmt.roundRat (m : Fmt) (rm : BitVec 2) (s : Bool) (num den : Nat) : Res :=
  if num = 0 then (m.sign s, 0)
  else
    let k := m.f + 4 + bitlen den - bitlen num
    let q := num * 2 ^ k / den
    m.round rm s q (-(k : Int)) (num * 2 ^ k % den != 0)

/-! ### Sums and products (R268, R269, R286) -/

/-- The sign of an exact zero sum of addends of signs s and t (R269). -/
def zeroSign (rm : BitVec 2) (s t : Bool) : Bool := if s == t then s else rm == 2

/-- The exact sum of two finite values, rounded once. -/
def Fmt.sum (m : Fmt) (rm : BitVec 2) (s : Bool) (a : Nat) (ea : Int) (t : Bool) (b : Nat) (eb : Int) : Res :=
  let e := min ea eb
  let x : Int := (a * 2 ^ (ea - e).toNat : Nat)
  let y : Int := (b * 2 ^ (eb - e).toNat : Nat)
  let z := (if s then -x else x) + (if t then -y else y)
  if z = 0 then (m.sign (zeroSign rm s t), 0) else m.roundInt rm z e

/-- The NaN that an addition of two operands gives, when one of them is a NaN (R268 clauses 1 and 2). -/
def Fmt.addNan (m : Fmt) (a b : Fp) : Option Nat :=
  match a, b with
  | .nan x, .nan y => some (m.quiet (if m.payload y < m.payload x then y else x))
  | .nan x, _ => some (m.quiet x)
  | _, .nan y => some (m.quiet y)
  | _, _ => none

/-- The first NaN among operands, quieted (R268 clause 2). -/
def Fmt.firstNan (m : Fmt) : List Fp → Option Nat
  | [] => none
  | .nan x :: _ => some (m.quiet x)
  | _ :: rest => m.firstNan rest

/-- a + b (or a − b when `neg`), a created NaN being `cn` (R268, R286). -/
def Fmt.add (m : Fmt) (rm : BitVec 2) (cn : Nat) (neg : Bool) (a b : Nat) : Res :=
  let x := m.get a
  let y := m.get b
  let f := m.snv x ||| m.snv y
  match m.addNan x y with
  | some n => (n, f)
  | none =>
    match x, y with
    | .inf s, .inf t => if s == (t != neg) then (m.inf s, 0) else (cn, nv)
    | .inf s, _ => (m.inf s, 0)
    | _, .inf t => (m.inf (t != neg), 0)
    | .fin s p ep, .fin t q eq => m.sum rm s p ep (t != neg) q eq
    | _, _ => (cn, 0)

/-- An addition of a matrix command or a copy: nothing quiets its operands beforehand, so of two NaNs the one with the smaller
payload is the result as it stands (R265, R268 clause 1). -/
def Fmt.join (m : Fmt) (cn a b : Nat) : Nat :=
  match m.get a, m.get b with
  | .nan x, .nan y => if m.payload y < m.payload x then y else x
  | _, _ => (m.add 0 cn false a b).1

/-- a × b (R286). -/
def Fmt.mul (m : Fmt) (rm : BitVec 2) (cn : Nat) (a b : Nat) : Res :=
  let x := m.get a
  let y := m.get b
  let f := m.snv x ||| m.snv y
  match m.firstNan [x, y] with
  | some n => (n, f)
  | none =>
    match x, y with
    | .inf s, .inf t => (m.inf (s != t), 0)
    | .inf s, .fin t q _ => if q = 0 then (cn, nv) else (m.inf (s != t), 0)
    | .fin s p _, .inf t => if p = 0 then (cn, nv) else (m.inf (s != t), 0)
    | .fin s p ep, .fin t q eq => m.round rm (s != t) (p * q) (ep + eq) false
    | _, _ => (cn, 0)

/-- a × b + c, or a × b − c when `neg`, rounded once; a product of ±0 and ±Inf raises NV (R286). -/
def Fmt.fma (m : Fmt) (rm : BitVec 2) (neg : Bool) (a b c : Nat) : Res :=
  let x := m.get a
  let y := m.get b
  let z := m.get c
  let f := m.snv x ||| m.snv y ||| m.snv z
  let zeroInf := match x, y with
    | .inf _, .fin _ q _ => q == 0
    | .fin _ p _, .inf _ => p == 0
    | _, _ => false
  match m.firstNan [x, y, z] with
  | some n => (n, if zeroInf then f ||| nv else f)
  | none =>
    if zeroInf then (m.nan, nv)
    else
      let sgn : Fp → Bool := fun v => match v with
        | .inf s => s
        | .fin s _ _ => s
        | .nan _ => false
      let ps := sgn x != sgn y
      let zs := sgn z != neg
      let infProd := match x, y with
        | .inf _, _ => true
        | _, .inf _ => true
        | _, _ => false
      match infProd, z with
      | true, .inf _ => if ps == zs then (m.inf ps, 0) else (m.nan, nv)
      | true, _ => (m.inf ps, 0)
      | false, .inf _ => (m.inf zs, 0)
      | false, .fin _ r er =>
        match x, y with
        | .fin _ p ep, .fin _ q eq => m.sum rm ps (p * q) (ep + eq) zs r er
        | _, _ => (m.nan, 0)
      | false, .nan _ => (m.nan, 0)

/-! ### Quotients and roots (R286, R287) -/

/-- a ÷ b (R286). -/
def Fmt.div (m : Fmt) (rm : BitVec 2) (a b : Nat) : Res :=
  let x := m.get a
  let y := m.get b
  let f := m.snv x ||| m.snv y
  match m.firstNan [x, y] with
  | some n => (n, f)
  | none =>
    match x, y with
    | .inf _, .inf _ => (m.nan, nv)
    | .inf s, .fin t _ _ => (m.inf (s != t), 0)
    | .fin s _ _, .inf t => (m.sign (s != t), 0)
    | .fin s p ep, .fin t q eq =>
      if q = 0 then (if p = 0 then (m.nan, nv) else (m.inf (s != t), dz))
      else if p = 0 then (m.sign (s != t), 0)
      else
        let k := m.f + 4 + bitlen q - bitlen p
        m.round rm (s != t) (p * 2 ^ k / q) (ep - eq - k) (p * 2 ^ k % q != 0)
    | _, _ => (m.nan, 0)

/-- The integer square root by bits below 2^n. -/
def isqrtGo (x : Nat) : Nat → Nat → Nat
  | 0, r => r
  | n + 1, r => let r' := r + 2 ^ n; isqrtGo x n (if r' * r' ≤ x then r' else r)

/-- The integer square root. -/
def isqrt (x : Nat) : Nat := isqrtGo x (bitlen x / 2 + 1) 0

/-- √a (R286). -/
def Fmt.sqrt (m : Fmt) (rm : BitVec 2) (a : Nat) : Res :=
  match m.get a with
  | .nan b => (m.quiet b, m.snv (.nan b))
  | .inf s => if s then (m.nan, nv) else (m.inf false, 0)
  | .fin s p e =>
    if p = 0 then (m.sign s, 0)
    else if s then (m.nan, nv)
    else
      let k := 2 * (m.f + 4)
      let k := if (e - k) % 2 = 0 then k else k + 1
      let x := p * 2 ^ k
      let q := isqrt x
      m.round rm false q ((e - k) / 2) (q * q != x)

/-- 1 ÷ a (R287). -/
def Fmt.rcp (m : Fmt) (rm : BitVec 2) (a : Nat) : Res :=
  match m.get a with
  | .nan b => (m.quiet b, m.snv (.nan b))
  | .inf s => (m.sign s, 0)
  | .fin s p e =>
    if p = 0 then (m.inf s, dz)
    else
      let k := m.f + 4 + bitlen p
      m.round rm s (2 ^ k / p) (-(k : Int) - e) (2 ^ k % p != 0)

/-- 1 ÷ √a (R287). -/
def Fmt.rsq (m : Fmt) (rm : BitVec 2) (a : Nat) : Res :=
  match m.get a with
  | .nan b => (m.quiet b, m.snv (.nan b))
  | .inf s => if s then (m.nan, nv) else (m.sign false, 0)
  | .fin s p e =>
    if p = 0 then (m.inf s, dz)
    else if s then (m.nan, nv)
    else
      let (p, e) := if e % 2 = 0 then (p, e) else (2 * p, e - 1)
      let t := m.f + 4 + bitlen p
      let q := isqrt (2 ^ (2 * t) / p)
      m.round rm false q (-(t : Int) - e / 2) (q * q * p != 2 ^ (2 * t))

/-! ### Powers and logarithms of 2 (R287) -/

/-- Rounds a value that lies strictly between lo and hi (units of 2^e) when both ends round alike. -/
def Fmt.between (m : Fmt) (rm : BitVec 2) (s : Bool) (lo hi : Nat) (e : Int) : Option Res :=
  let a := m.round rm s lo e true
  let b := m.round rm s (hi - 1) e true
  if a == b then some a else none

/-- A lower bound of 2^f in units of 2^−p, for f = x / 2^n below 1: the product of the roots 2^(2^−i) of its bits. Each
root and product is cut off, so the bound is less than 4,096 units low for the formats here. -/
def exp2Go (p x : Nat) : Nat → Nat → Nat → Nat
  | 0, _, acc => acc
  | n + 1, root, acc =>
    let root := isqrt (root * 2 ^ p)
    exp2Go p x n root (if x / 2 ^ n % 2 = 1 then acc * root / 2 ^ p else acc)

/-- Tries working precisions in turn (log 20). -/
def firstSome {α β : Type} (f : α → Option β) : List α → Option β
  | [] => none
  | a :: rest => match f a with
    | some b => some b
    | none => firstSome f rest

/-- Working precisions, in bits. -/
def precisions : List Nat := [192, 512, 1536]

/-- 2^a (R287): exact for an integer a, else correctly rounded. -/
def Fmt.exp2 (m : Fmt) (rm : BitVec 2) (a : Nat) : Res :=
  match m.get a with
  | .nan b => (m.quiet b, m.snv (.nan b))
  | .inf s => if s then (m.sign false, 0) else (m.inf false, 0)
  | .fin s p e =>
    if p = 0 then m.round rm false 1 0 false
    else
      let z : Int := if s then -(p : Int) else p
      if (bitlen p : Int) + e ≤ -64 then
        -- |a| < 2^-64: just above or just below 1
        if s then m.round rm false (2 ^ 64 - 1) (-64) true else m.round rm false (2 ^ 64) (-64) true
      else if 20 ≤ (bitlen p : Int) + e then
        -- |a| ≥ 2^19: beyond every range; exact only where a is an integer, which here is always so
        m.round rm false 1 (if s then -524288 else 524288) false
      else if 0 ≤ e then m.round rm false 1 (z * 2 ^ e.toNat) false
      else
        let n := (-e).toNat
        let i := z / 2 ^ n
        let x := (z - i * 2 ^ n).toNat
        if x = 0 then m.round rm false 1 i false
        else
          (firstSome (fun w =>
            let lo := exp2Go w x n (2 * 2 ^ w) (2 ^ w)
            m.between rm false lo (lo + 4096) (i - w)) precisions).getD
              (m.round rm false (exp2Go 1536 x n (2 * 2 ^ 1536) (2 ^ 1536)) (i - 1536) true)

/-- Bits of log₂ y for y in [1, 2), in units of 2^−w of working precision, most significant first. -/
def log2Go (w : Nat) : Nat → Nat → Nat → Nat
  | 0, _, acc => acc
  | n + 1, y, acc =>
    let y := y * y / 2 ^ w
    if 2 ^ (w + 1) ≤ y then log2Go w n (y / 2) (2 * acc + 1) else log2Go w n y (2 * acc)

/-- log₂ a (R287): exact for a power of two, else correctly rounded. -/
def Fmt.log2 (m : Fmt) (rm : BitVec 2) (a : Nat) : Res :=
  match m.get a with
  | .nan b => (m.quiet b, m.snv (.nan b))
  | .inf s => if s then (m.nan, nv) else (m.inf false, 0)
  | .fin s p e =>
    if p = 0 then (m.inf true, dz)
    else if s then (m.nan, nv)
    else
      let l := bitlen p - 1
      let n := e + l
      if p = 2 ^ l then (if n = 0 then (m.sign false, 0) else m.roundInt rm n 0)
      else
        let try_ (w : Nat) : Nat × Nat × Bool :=
          let g := 2 * w + 16
          let q := log2Go g w (p * 2 ^ g / 2 ^ l) 0
          let z := n * 2 ^ w + (q : Int)
          if 0 ≤ n then (z.toNat, z.toNat + 2, false) else ((-z).toNat - 2, (-z).toNat, true)
        (firstSome (fun w => let r := try_ w; m.between rm r.2.2 r.1 r.2.1 (-(w : Int))) precisions).getD
          (let r := try_ 1536; m.round rm r.2.2 r.1 (-1536) true)

/-! ### Comparison, minimum, maximum (R286, R290) -/

/-- The value of a finite number as a signed multiple of a power of two small enough for both operands. -/
def Fp.scaled (e : Int) : Fp → Int
  | .fin s m x => let v : Int := (m * 2 ^ (x - e).toNat : Nat); if s then -v else v
  | _ => 0

/-- a < b for two values that are not NaN; −0 and +0 are equal. -/
def fpLt (x y : Fp) : Bool :=
  match x, y with
  | .inf s, .inf t => s && !t
  | .inf s, _ => s
  | _, .inf t => !t
  | .fin _ _ ea, .fin _ _ eb => let e := min ea eb; decide (x.scaled e < y.scaled e)
  | _, _ => false

/-- The sign of a value. -/
def Fp.neg : Fp → Bool
  | .inf s => s
  | .fin s _ _ => s
  | .nan _ => false

/-- VMIN and VMAX (R286): −0 below +0; a NaN by R268 clause 2. -/
def Fmt.minmax (m : Fmt) (wantMax : Bool) (a b : Nat) : Res :=
  let x := m.get a
  let y := m.get b
  let f := m.snv x ||| m.snv y
  match m.firstNan [x, y] with
  | some n => (n, f)
  | none =>
    let less := fpLt x y || (!fpLt y x && x.neg && !y.neg)
    (if less == wantMax then b % 2 ^ m.width else a % 2 ^ m.width, 0)

/-- The relations of VCMP: EQ, NE, LT, LE, GT, GE, UN. -/
def Fmt.cmp (m : Fmt) (rel : Nat) (a b : Nat) : Bool × Flags :=
  let x := m.get a
  let y := m.get b
  let sn := m.snv x ||| m.snv y
  let un := (match x with | .nan _ => true | _ => false) || (match y with | .nan _ => true | _ => false)
  if un then
    match rel with
    | 1 | 6 => (true, sn)
    | 0 => (false, sn)
    | _ => (false, nv)
  else
    let lt := fpLt x y
    let gt := fpLt y x
    (match rel with
      | 0 => !lt && !gt
      | 1 => lt || gt
      | 2 => lt
      | 3 => !gt
      | 4 => gt
      | 5 => !lt
      | _ => false, 0)

/-! ### Conversions (R270) -/

/-- IEEE to IEEE. -/
def Fmt.convert (src dst : Fmt) (rm : BitVec 2) (a : Nat) : Res :=
  match src.get a with
  | .inf s => (dst.inf s, 0)
  | .fin s p e => if p = 0 then (dst.sign s, 0) else dst.round rm s p e false
  | .nan b =>
    let frac := b % 2 ^ src.f
    let frac := if src.f ≤ dst.f then frac * 2 ^ (dst.f - src.f) else frac / 2 ^ (src.f - dst.f)
    let s := decide (2 ^ (src.e + src.f) ≤ b)
    (dst.quiet (dst.sign s + (2 ^ dst.e - 1) * 2 ^ dst.f + frac % 2 ^ dst.f), src.snv (.nan b))

/-- IEEE to an integer type with limits lo and hi. -/
def Fmt.toInt (m : Fmt) (rm : BitVec 2) (lo hi : Int) (a : Nat) : Int × Flags :=
  match m.get a with
  | .nan _ => (0, nv)
  | .inf s => (if s then lo else hi, nv)
  | .fin s p e =>
    let (k, inexact) := roundAt rm s p e false 0
    let k := if 0 ≤ e then p * 2 ^ e.toNat else k
    let inexact := if 0 ≤ e then false else inexact
    let z : Int := if s then -(k : Int) else k
    if z < lo then (lo, nv) else if hi < z then (hi, nv) else (z, if inexact then nx else 0)

/-- An integer to IEEE. -/
def Fmt.ofInt (m : Fmt) (rm : BitVec 2) (z : Int) : Res := if z = 0 then (0, 0) else m.roundInt rm z 0

end Sys2Proof.Machine
end

