-- ==== Sys2Proof/Machine/Number.lean ====
section
/-! DEFINITION. DM8 (R260 to R262), block scales (R263, R264), the pairwise tree (R274), the products and sums of a
k-step (R272, R273, R275, R276), and the conversions of copies (R270, R278). -/

namespace Sys2Proof.Machine

open Sys2Proof

/-! ### DM8 (R260, R261) -/

/-- A DM8 value: ± n / 64 × 10^e; n is 0 for the zero. -/
inductive Dm8 where
  | nan
  | inf (s : Bool)
  | fin (s : Bool) (n : Nat) (e : Int)
  deriving DecidableEq, Repr

/-- Exponent bits and fraction bits of the row of R260 with z zeros above the marker. -/
def dm8Row (z : Nat) : Nat × Nat :=
  match z with
  | 0 => (0, 6) | 1 => (1, 4) | 2 => (2, 2) | 3 => (2, 1) | 4 => (2, 0) | _ => (1, 0)

/-- The exponent that a field selects in a row (R260). -/
def dm8Exp (z f : Nat) : Int :=
  match z, f with
  | 0, _ => 0
  | 1, 0 => -1 | 1, _ => 1
  | 2, 0 => -2 | 2, 1 => 2 | 2, 2 => -3 | 2, _ => 3
  | 3, 0 => -4 | 3, 1 => 4 | 3, 2 => -5 | 3, _ => 5
  | 4, 0 => -6 | 4, 1 => 6 | 4, 2 => -7 | 4, _ => 7
  | _, 0 => -8 | _, _ => 8

/-- N and e of a code from 2 to 127 (R260). -/
def dm8Code (c : Nat) : Nat × Int :=
  let z := 7 - bitlen c
  let (w, m) := dm8Row z
  (64 + 9 * (c % 2 ^ m) * 2 ^ (6 - m), dm8Exp z (c / 2 ^ m % 2 ^ w))

/-- Decodes a byte without a block scale (R261). -/
def dm8Get (b : Nat) : Dm8 :=
  let s := decide (128 ≤ b % 256)
  let c := b % 128
  if c = 0 then (if s then .nan else .fin false 0 0)
  else if c = 1 then .inf s
  else
    let (n, e) := dm8Code c
    .fin s n e

/-- Decodes a byte under a scale (R261). -/
def dm8Value (b : Nat) (sc : Int) : Dm8 :=
  match dm8Get b with
  | .fin s n e => .fin s n (e + sc)
  | v => v

/-- n / den × 10^e as a quotient of natural numbers. -/
def tenRat (n den : Nat) (e : Int) : Nat × Nat := if 0 ≤ e then (n * 10 ^ e.toNat, den) else (n, den * 10 ^ (-e).toNat)

/-- A DM8 value in an IEEE format, rounded once; `cn` is the NaN that 0x80 gives (R270). -/
def Fmt.ofDm8 (m : Fmt) (cn : Nat) : Dm8 → Res
  | .nan => (cn, 0)
  | .inf s => (m.inf s, 0)
  | .fin s n e => let q := tenRat n 64 e; m.roundRat 0 s q.1 q.2

/-! ### Encoding (R262) -/

/-- A candidate: its magnitude in units of 10^-8 / 64, and its code. -/
def dm8Cand (c : Nat) : Nat × Nat :=
  let (n, e) := dm8Code c
  (n * 10 ^ (e + 8).toNat, c)

/-- The candidates: zero and the 126 positive values. -/
def dm8Cands : List (Nat × Nat) := (0, 0) :: (List.range 126).map (fun k => dm8Cand (k + 2))

/-- The distance of two numbers. -/
def natDist (a b : Nat) : Nat := if a ≤ b then b - a else a - b

/-- The better of two candidates for x / den: the nearer, on a tie the smaller. -/
def dm8Better (x den : Nat) (p q : Nat × Nat) : Nat × Nat :=
  let dp := natDist x (p.1 * den)
  let dq := natDist x (q.1 * den)
  if dq < dp || (dq == dp && decide (q.1 < p.1)) then q else p

/-- Encodes ± num / den; and whether it saturated. -/
def dm8Put (s : Bool) (num den : Nat) : Nat × Bool :=
  let sg := if s then 128 else 0
  if 10 ^ 8 * den < num then (sg + 3, true)
  else
    let c := (dm8Cands.foldl (dm8Better (num * 64 * 10 ^ 8) den) (0, 0)).2
    (if c = 0 then 0 else sg + c, false)

/-- The rational magnitude of m × 2^e × 10^-S. -/
def fpRat (m : Nat) (e sc : Int) : Nat × Nat :=
  let p := if 0 ≤ e then (m * 2 ^ e.toNat, 1) else (m, 2 ^ (-e).toNat)
  if 0 ≤ sc then (p.1, p.2 * 10 ^ sc.toNat) else (p.1 * 10 ^ (-sc).toNat, p.2)

/-- Encodes an IEEE value under a scale (R262). -/
def dm8Of (v : Fp) (sc : Int) : Nat × Bool :=
  match v with
  | .nan _ => (0x80, false)
  | .inf s => (if s then 0x81 else 0x01, false)
  | .fin s m e => let q := fpRat m e sc; dm8Put s q.1 q.2

/-- The scale of a block (R264): the largest S from −128 to 127 with 10^S at or below the largest finite magnitude. -/
def blockScale (vs : List Fp) : Int :=
  let le (sc : Int) : Fp → Bool
    | .fin _ m e => let q := fpRat m e sc; m != 0 && decide (q.2 ≤ q.1)
    | _ => false
  let some_ := vs.any (fun v => match v with
    | .fin _ m _ => m != 0
    | _ => false)
  if !some_ then 0
  else (List.range 256).foldl (fun (b : Int) (k : Nat) => if vs.any (le ((k : Int) - 128)) then (k : Int) - 128 else b) (-128)

/-! ### Trees (R274) -/

/-- The sum of 2^j values by the pairwise tree; `cn` gives the NaN created in an addition whose lowest leaf is lo. -/
def Fmt.tree (m : Fmt) (rm : BitVec 2) (cn : Nat → Nat) : Nat → Nat → List Nat → Res
  | 0, _, xs => (xs.headD 0, 0)
  | j + 1, lo, xs =>
    let (a, fa) := m.tree rm cn j lo (xs.take (2 ^ j))
    let (b, fb) := m.tree rm cn j (lo + 2 ^ j) (xs.drop (2 ^ j))
    let (r, f) := m.add rm (cn lo) false a b
    (r, fa ||| fb ||| f)

/-- The same tree of an operation that keeps one of two values or adds integers. -/
def treeOp (op : Nat → Nat → Res) : Nat → List Nat → Res
  | 0, xs => (xs.headD 0, 0)
  | j + 1, xs =>
    let (a, fa) := treeOp op j (xs.take (2 ^ j))
    let (b, fb) := treeOp op j (xs.drop (2 ^ j))
    let (r, f) := op a b
    (r, fa ||| fb ||| f)

/-! ### The arithmetic of a k-step (R272, R273, R275 to R277) -/

/-- A NaN created in FP32 by a matrix command or a copy (R268 clause 3). -/
def nan32 (core k : Nat) : Nat := 0x7FC00000 + (core * 2 ^ 10 + k % 2 ^ 10) % 2 ^ 22

/-- A DM8 product (R272): FP32 bits, and whether it overflowed. -/
def dm8Mul (cn : Nat) (a b : Dm8) : Nat × Bool :=
  match a, b with
  | .nan, _ => (cn, false)
  | _, .nan => (cn, false)
  | .inf s, .inf t => (fp32.inf (s != t), false)
  | .inf s, .fin t n _ => (if n = 0 then cn else fp32.inf (s != t), false)
  | .fin s n _, .inf t => (if n = 0 then cn else fp32.inf (s != t), false)
  | .fin s n e, .fin t p f =>
    if n = 0 || p = 0 then (0, false)
    else
      let q := tenRat (n * p) 4096 (e + f)
      let (r, fl) := fp32.roundRat 0 (s != t) q.1 q.2
      (r, fl &&& ovf != 0)

/-- A BF16 value as an FP32 one; exact but for the quieting of a signalling NaN (R270). -/
def bf16To32 (a : Nat) : Nat := (bf16.convert fp32 0 a).1

/-- A BF16 product (R273). -/
def bf16Mul (cn a b : Nat) : Nat × Bool :=
  let (r, fl) := fp32.mul 0 cn (bf16To32 a) (bf16To32 b)
  (r, fl &&& ovf != 0)

/-- An FP32 NaN. -/
def isNan32 (a : Nat) : Bool :=
  match fp32.get a with
  | .nan _ => true
  | _ => false

/-- A sum saturated to 32 bits (R275), and whether it saturated. -/
def satInt32 (z : Int) : Nat × Bool :=
  if z < -2147483648 then (2147483648, true)
  else if 2147483647 < z then (2147483647, true)
  else ((BitVec.ofInt 32 z).toNat, false)

/-! ### Copy conversion and accumulation (R270, R278) -/

/-- A source element of a copy, decoded exactly: its value in FP32 terms is not rounded. -/
inductive Elem where
  | dm8 (b : Nat) (sc : Int)
  | ieee (m : Fmt) (b : Nat)
  deriving DecidableEq, Repr

/-- The IEEE value of an element that is not DM8. -/
def Elem.fp : Elem → Fp
  | .dm8 _ _ => .fin false 0 0
  | .ieee m b => m.get b

/-- An element converted to an IEEE format (R270); a DM8 NaN is created in FP32 and narrowed. -/
def Elem.toFmt (core k : Nat) (dst : Fmt) : Elem → Nat
  | .dm8 b sc =>
    match dm8Value b sc with
    | .nan => (fp32.convert dst 0 (nan32 core k)).1
    | v => (dst.ofDm8 0 v).1
  | .ieee m b => (m.convert dst 0 b).1

/-- The exact sum of an IEEE value and a DM8 one, rounded once. -/
def Fmt.addDm8 (m : Fmt) (core k : Nat) (d b : Nat) (sc : Int) : Nat :=
  match dm8Value b sc, m.get d with
  | .fin t n e, .fin s p x =>
    if n = 0 then (m.add 0 0 false d 0).1
    else
      let q := tenRat n 64 e
      -- over the common denominator q.2 × 2^(−x) or q.2
      let den := q.2 * 2 ^ (-x).toNat
      let a : Int := (p * 2 ^ x.toNat * q.2 : Nat)
      let c : Int := (q.1 * 2 ^ (-x).toNat : Nat)
      let z := (if s then -a else a) + (if t then -c else c)
      if z = 0 then m.sign (zeroSign 0 s t) else (m.roundRat 0 (decide (z < 0)) z.natAbs den).1
  | v, _ =>
    let cn := (fp32.convert m 0 (nan32 core k)).1
    let x := match v with
      | .nan => cn
      | .inf s => m.inf s
      | .fin .. => 0
    m.join cn d x

/-- D + X of a copy-accumulate (R278), D first. -/
def Fmt.accum (m : Fmt) (core k : Nat) (d : Nat) : Elem → Nat
  | .dm8 b sc => m.addDm8 core k d b sc
  | .ieee f b =>
    let cn := (fp32.convert m 0 (nan32 core k)).1
    match f.get b, m.get d with
    | .fin t q eq, .fin s p ep => (m.sum 0 s p ep t q eq).1
    | .fin .., _ => (m.add 0 cn false d 0).1
    | _, _ => m.join cn d (if f = m then b else (f.convert m 0 b).1)

end Sys2Proof.Machine
end

