-- ==== Sys2Proof/Machine/Sync.lean ====
section
/-! DEFINITION. Watching, fences, flushes, migration and full-empty states (major 0x27), barriers (major 0x29)
and WAIT (major 0x2A): R190 to R198, R207 to R212, R406. -/

namespace Sys2Proof.Machine

open Sys2Proof

/-! ### Watches (R191 to R193) -/

/-- The key by which a context remembers a watch of the word at an address. -/
def State.watchKey (s : State) (x : Word) : Nat := vkey (s.asnOf s.cur) x

/-- The running context watches the word, in a home's table or as a polled watch. -/
def State.watches (s : State) (x : Word) : Bool :=
  (s.me.watching.find (s.watchKey x)).isSome

/-- The value of the word at an address where it can be read now (for a polled watch, R191). -/
def State.peek (s : State) (k : Nat) : Word :=
  match s.phys k with
  | some p => s.mem.word p
  | none => 0

/-- Records the home's answer to a WATCH: in its table, or a polled watch in the core (R191). -/
def State.tookWatch (s : State) (x : Word) (inTable temp : Bool) : State :=
  let k := s.watchKey x
  let v := s.peek k
  let s := s.withMe (fun c => { c with watching := c.watching.set k temp })
  if inTable then s else s.withMe (fun c => { c with polled := c.polled.set k v })

/-- Removes the running context's watch of a word at its home and in the core (R191). -/
def State.dropWatch (s : State) (x : Word) : State :=
  let k := s.watchKey x
  let s := match s.phys k with
    | some p => { s with cores := s.cores.mapVal (fun c => { c with watches := c.watches.filter (fun w => w != (p, s.cur)) }) }
    | none => s
  s.withMe (fun c => { c with watching := c.watching.del k, polled := c.polled.del k })

/-- What the home's answer gives a packet that waits for it at stage 6 (R406). -/
def State.precise (s : State) (r : Req) (fc : Nat) : Out State := s.raise (fcCause fc) r.addr

/-- WATCH (R191, R406). -/
def execWatch (a : Reg) (s : State) : Out State :=
  let x := s.plain a
  s.access a .zr x 8 8 (fun s =>
    if s.watches x then s.done (.watch a) s
    else
      let r := s.req x .watch none
      if s.direct x then
        let p := s.home s.here r
        match p.2 with
        | .answered v => s.done (.watch a) (p.1.tookWatch x v.isSome false)
        | .faulted fc _ => p.1.precise r fc
        | _ => p.1.bayWait (.watch a) r
      else (s.request (s.homeNow x) r).bayWait (.watch a) r)

/-- UNWATCH (R191): the home removes the watch, if the context has one. -/
def execUnwatch (a : Reg) (s : State) : Out State :=
  let x := s.plain a
  s.access a .zr x 8 8 (fun s =>
    let r := s.req x .unwatch none
    let s' := s.withMe (fun c => { c with watching := c.watching.del (s.watchKey x), polled := c.polled.del (s.watchKey x) })
    if s.direct x then s.done (.unwatch a) (s'.home s.here r).1
    else s.done (.unwatch a) (s'.request (s.homeNow x) r))

/-- WAITA once its read has returned v (R193): done when it differs from b, the temporary watch with it; else
the wait for a store, which a store since the read has already ended. -/
def State.waitaGot (s : State) (i : Instr) (x v b : Word) : Out State :=
  if v != b then
    let s' := match s.me.watching.find (s.watchKey x) with
      | some true => s.dropWatch x
      | _ => s
    s.done i s'
  else if s.me.ready then .next (s.withMe (fun c => { c with bay := none, run := .runnable }))
  else .next (s.withMe (fun c => { c with bay := none, run := .waiting .watch }))

/-- WAITA (R193): a temporary watch first, if the context does not watch the word; then a read as an acquire,
and a wait while the word equals d. -/
def execWaita (d a : Reg) (s : State) : Out State :=
  let i : Instr := .waita d a
  let x := s.plain a
  let b := s.plain d
  s.access a d x 8 8 (fun s =>
    if s.watches x then
      let s := s.withMe (fun c => { c with ready := false })
      let r := s.req x .waita none
      if s.direct x then
        let p := s.home s.here r
        match p.2 with
        | .answered (some v) => p.1.waitaGot i x v b
        | .faulted fc _ => p.1.precise r fc
        | _ => p.1.bayWait i r
      else (s.request (s.homeNow x) r).bayWait i r
    else
      let r := s.req x .watch none
      if s.direct x then
        let p := s.home s.here r
        match p.2 with
        | .answered v =>
          let s1 := (p.1.tookWatch x v.isSome true).withMe (fun c => { c with ready := false })
          let q := s1.home s1.here (s1.req x .waita none)
          match q.2 with
          | .answered (some v) => q.1.waitaGot i x v b
          | .faulted fc _ => q.1.precise r fc
          | _ => q.1.bayWait i r
        | .faulted fc _ => p.1.precise r fc
        | _ => p.1.bayWait i r
      else (s.request (s.homeNow x) r).bayWait i r)

/-! ### PREF, FENCE, FLUSH, MIGR (R194 to R197) -/

/-- PREF (R194): asks for the line of a global address that has a home and a translation. -/
def execPref (a : Reg) (s : State) : Out State :=
  let x := s.plain a
  match s.ready2 a .zr with
  | some w => s.waitFor w
  | none =>
    let k := vkey (s.asnOf s.cur) x
    if isPad x || (s.homeOf s.cur x).isNone || (s.pageOf k).isNone || (s.copyOf x 1).isSome then s.done (.pref a) s
    else s.done (.pref a) (s.request (s.homeNow x) { s.req x .prefetch none with key := k / 32 * 32 })

/-- FENCE (R195). -/
def execFence (c : Scope) (s : State) : Out State :=
  s.ordered (match c with
    | .th => s.done (.fence c) s
    | _ => s.releasing c (fun s => s.done (.fence c) s))

/-- FLUSH (R196): the buffered bytes of the line go to its home, the line leaves the L1; counted in UNACK until
the home acknowledges it. -/
def execFlush (a : Reg) (s : State) : Out State :=
  let i : Instr := .flush a
  let x := s.plain a
  match s.ready2 a .zr with
  | some w => s.waitFor w
  | none =>
    if (s.homeOf s.cur x).isNone then s.raise .badAddress x
    else
      let line := vkey (s.asnOf s.cur) x / 32 * 32
      let c := s.core s.here
      let owners := (c.wcb.filter (fun e => e.line == line)).map (fun e => e.cid)
      if isPad x || (owners.isEmpty && !c.l1.any (fun l => l.key == line)) then s.done i s
      else if Config.unackMax ≤ s.me.unack then s.waitFor .posted
      else s.inOrder x (fun s =>
        let h := s.homeNow x
        let s1 := owners.foldl (fun s cid => s.flushWcb cid h) s
        let s2 := s1.onCore s.here (fun c => { c with l1 := c.l1.filter (fun l => l.key != line) })
        let r := { s.req x .flush none with key := line }
        s.done i ((s2.post r).request h r))

/-- MIGR (R197): carries the thread to the home of the address; PRIVILEGE in context 0 and in compensation
mode (R116). -/
def execMigr (d a : Reg) (s : State) : Out State :=
  let i : Instr := .migr d a
  let x := s.plain a
  let mask : BitVec 16 := (s.plain d).truncate 16
  if ctxOf s.cur == 0 || s.th.comp then s.refusePriv i
  else
    match s.ready2 a d with
    | some w => s.waitFor w
    | none =>
      match s.homeOf s.cur x with
      | none => s.raise .badAddress x
      | some h => if h == s.here then s.done i s else s.travel i x h mask false true

/-! ### SETE and SETF (R198) -/

/-- SETE (R198, R242). -/
def execSete (a : Reg) (s : State) : Out State :=
  let x := s.plain a
  s.access a .zr x 8 8 (fun s =>
    if !isPad x && s.resvFull then s.raise .badAddress x else s.issuePost (.sete a) x .sete)

/-- SETF (R198). -/
def execSetf (a : Reg) (s : State) : Out State :=
  let x := s.plain a
  s.access a .zr x 8 8 (fun s => s.issuePost (.setf a) x .setf)

/-! ### Barriers (R208 to R211) -/

/-- A barrier object's address: 16-byte aligned, in scratchpad (R208). -/
def State.barrier (s : State) (a b : Reg) (x : Word) (k : State → Out State) : Out State :=
  match s.ready2 a b with
  | some w => s.waitFor w
  | none =>
    if x.toNat % 16 != 0 then s.raise .misaligned x
    else if !isPad x || s.badAddr s.cur x || s.hitsRing s.cur x 16 then s.raise .badAddress x
    else s.inOrder x k

/-- BINIT (R209). -/
def execBinit (a b : Reg) (s : State) : Out State :=
  let x := s.plain a
  let v := s.plain b
  s.barrier a b x (fun s =>
    if bits v 0 20 == 0 || bits v 21 43 != 0 then s.raise .badAddress v
    else s.issuePost (.binit a b) x (.binit v))

/-- ARV (R210). -/
def execArv (d a : Reg) (o : Bool) (c : Scope) (n : BitVec 4) (s : State) : Out State :=
  let i : Instr := .arv d a o c n
  let x := s.plain a
  s.barrier a .zr x (fun s =>
    let go (s : State) : Out State := s.issue i (gReg d) x (.arv n.toNat (dieOf s.here) false)
    if o then s.releasing c go else go s)

/-- ARVP (R210). -/
def execArvp (a : Reg) (o : Bool) (c : Scope) (n : BitVec 4) (s : State) : Out State :=
  let i : Instr := .arvp a o c n
  let x := s.plain a
  s.barrier a .zr x (fun s =>
    let go (s : State) : Out State := s.issuePost i x (.arv n.toNat (dieOf s.here) true)
    if o then s.releasing c go else go s)

/-- BWT (R211, R406). -/
def execBwt (a b : Reg) (o : Bool) (c : Scope) (s : State) : Out State :=
  let i : Instr := .bwt a b o c
  let x := s.plain a
  let p : BitVec 4 := (s.plain b).truncate 4
  s.barrier a b x (fun s =>
    let r := s.req x (.bwt p) none
    if s.direct x then
      let q := s.home s.here r
      match q.2 with
      | .answered _ => s.done i q.1
      | .faulted fc _ => q.1.precise r fc
      | .refused => (q.1.refusedHere r).bayWait i r
      | _ => q.1.bayWait i r
    else (s.request (s.homeNow x) r).bayWait i r)

/-! ### WAIT (R212) -/

/-- A count is at or below its limit, 15 being no limit. -/
def within (n : Nat) (l : BitVec 4) : Bool := l == 15 || decide (n ≤ l.toNat)

/-- Every count of WAIT meets its limit. -/
def State.countsMet (s : State) (cid : Nat) (l t c m : BitVec 4) : Bool :=
  within (s.ctx cid).outld l && within (s.outst cid) t && within (s.outcp cid) c && within (s.outmx cid) m

/-- WAIT (R212). -/
def execWait (l t c m : BitVec 4) (s : State) : Out State :=
  s.ordered (if s.countsMet s.cur l t c m then s.done (.wait l t c m) s
    else s.waitFor (.counts l.toNat t.toNat c.toNat m.toNat))

end Sys2Proof.Machine
end

