-- ==== Sys2Proof/Machine/LocalTime.lean ====
section
/-! DEFINITION. Local time (R356 to R371): clocks, bounds, the timed lane, published values and announcements. -/

namespace Sys2Proof.Machine

open Sys2Proof

/-- A sum that saturates at all ones (R360). -/
def satAdd (a b : Word) : Word := if 2 ^ 64 ≤ a.toNat + b.toNat then BitVec.allOnes 64 else a + b

/-- The smaller and the larger of two stamps. -/
def stampMin (a b : Word) : Word := if a.ule b then a else b
def stampMax (a b : Word) : Word := if a.ule b then b else a

/-- B (R362). -/
def LTime.bound (t : LTime) : Word :=
  t.ins.foldl (fun m i => stampMin m (satAdd i.ann (BitVec.ofNat 64 i.l))) (BitVec.allOnes 64)

/-- The head's stamp, all ones for an empty lane. -/
def LTime.headStamp (t : LTime) : Word :=
  match t.lane with
  | [] => BitVec.allOnes 64
  | m :: _ => m.stamp

/-- The local-time state that a context's thread takes part in (R358, R359, R369). -/
def State.ltOf (s : State) (cid : Nat) : Option LTime :=
  if ctxOf cid = 0 then none
  else
    match (s.core (coreOf cid)).lt with
    | none => none
    | some t => if t.launch == (s.ctx cid).th.launch then some t else none

/-- Changes the local-time state of a core. -/
def State.onLt (s : State) (core : Nat) (f : LTime → LTime) : State :=
  s.onCore core (fun c => { c with lt := c.lt.map f })

/-- The context waits or is parked in TDEQ. -/
def Ctx.inTdeq (c : Ctx) : Bool := c.run == .waiting .time || c.run == .parked .time

/-- The contexts 1 to 15 of a core. -/
def launchCtxs (core : Nat) : List Nat := (List.range 15).map (fun k => core * 16 + k + 1)

/-- The core is blocked (R364). -/
def State.ltBlocked (s : State) (core : Nat) (t : LTime) : Bool :=
  (launchCtxs core).all (fun cid =>
    let c := s.ctx cid
    !(c.occupied && c.th.launch == t.launch) || c.inTdeq)

/-- P (R364, R367). -/
def State.published (s : State) (core : Nat) (t : LTime) : Word :=
  if t.timeEnded then BitVec.allOnes 64
  else if s.ltBlocked core t then stampMax t.vt (stampMin t.bound t.headStamp)
  else t.vt

/-- The oldest TDEQ of the core goes on, so that the core does not stay blocked (R79, R204). -/
def LTime.goes (t : LTime) : Bool := !t.lane.isEmpty && t.headStamp.ult t.bound && !t.waiters.isEmpty

/-- The core looks at its clocks: a newly blocked core, or one whose P has grown while it stays blocked, has cause to
announce (R365, R371); rounds restart when B changes or the core becomes blocked (R368). -/
def State.ltTouch (s : State) (core : Nat) : State :=
  match (s.core core).lt with
  | none => s
  | some t =>
    let b := t.bound
    let blk := s.ltBlocked core t && !t.goes
    let p := s.published core t
    let again := blk && (!t.wasBlocked || t.lastP.ult p)
    let restart := b != t.lastB || (blk && !t.wasBlocked)
    s.onLt core (fun t =>
      { t with
        outs := if again then t.outs.map (fun o => { o with blockedSince := true }) else t.outs
        wasBlocked := blk
        lastP := p
        lastB := b
        rounds := if restart then 0 else t.rounds
        roundAt := if restart then (s.core core).cyc else t.roundAt })

/-- Every core of a launch with local time looks at its clocks: each step of the machine ends so, and a change of any thread of it is
seen (R364, R365, R368). -/
def State.ltAll (s : State) : State := s.cores.foldl (fun s e => if e.2.lt.isSome then s.ltTouch e.1 else s) s

/-- Timed order: stamp, source core, order of performance (R361). -/
def timedBefore (a b : Timed) : Bool :=
  a.stamp.ult b.stamp || (a.stamp == b.stamp && (decide (a.src < b.src) || (a.src == b.src && decide (a.ord < b.ord))))

/-- Inserts a message into a timed lane in order. -/
def insertTimed (m : Timed) : List Timed → List Timed
  | [] => [m]
  | x :: rest => if timedBefore m x then m :: x :: rest else x :: insertTimed m rest

/-- A timed message of the core to a destination that has not been accepted (R365). -/
def State.timedPending (s : State) (core dst : Nat) : Bool :=
  s.net.any (fun m => m.src == core && m.dst == dst && (match m.body with
    | .timed .. => true
    | _ => false))
    || (s.core core).msgResends.any (fun r => r.dst == dst && r.timed.isSome)

/-- An announcement on a link is due and may be sent (R365). -/
def State.mayAnnounce (s : State) (core : Nat) (t : LTime) (o : OutLink) : Bool :=
  let p := s.published core t
  let c := s.core core
  o.a.ult p
    && ((satAdd o.a (c.tquant.zeroExtend 64)).ule p || o.blockedSince || o.tnull || p == BitVec.allOnes 64)
    && (match o.lastCyc with
      | none => true
      | some k => decide (k + 32 ≤ c.cyc))
    && !s.timedPending core o.dst && !c.dbg.stopped

/-- ANNOUNCEMENT (R365, R366): the current P goes out on the link, and VT rises to it. -/
def execAnnouncement (core dest : Nat) (s : State) : Out State :=
  let s := s.ltTouch core
  match (s.core core).lt with
  | none => .next s
  | some t =>
    match t.outs.find? (fun o => o.dst == dest) with
    | none => .next s
    | some o =>
      if s.mayAnnounce core t o then
        let p := s.published core t
        let cyc := (s.core core).cyc
        .next ((s.onLt core (fun t =>
          { t with
            vt := stampMax t.vt p
            outs := t.outs.map (fun o => if o.dst == dest then
              { o with a := p, blockedSince := false, tnull := false, lastCyc := some cyc } else o) })).send core dest (.announce core t.launch p))
      else .next s

/-- ANNOUNCEMENT_RECEIVE (R362): the announced value enters its input link. -/
def execAnnouncementReceive (n : Nat) (s : State) : Out State :=
  match s.msgAt n with
  | some ⟨_, dst, .announce src launch v⟩ =>
    .next (((s.dropMsg n).onLt dst (fun t =>
      if t.launch == launch then
        { t with ins := t.ins.map (fun i => if i.src == src then { i with ann := stampMax i.ann v } else i) }
      else t)).ltTouch dst)
  | _ => .next s

/-- ZERO_LOOKAHEAD_ROUND (R368): a round of 256 cycles ends. -/
def execZeroLookaheadRound (core : Nat) (s : State) : Out State :=
  let s := s.ltTouch core
  match (s.core core).lt with
  | none => .next s
  | some t =>
    let c := s.core core
    if c.cyc < t.roundAt + 256 || c.dbg.stopped then .next s
    else
      let zero := (List.range t.ins.length).find? (fun k => match t.ins[k]? with
        | some i => i.l == 0
        | none => false)
      let n := t.rounds + 1
      match zero with
      | some k =>
        if s.ltBlocked core t && c.trounds != 0 && decide (c.trounds.toNat ≤ n) then
          let s := (launchCtxs core).foldl (fun s cid =>
            if (s.ctx cid).inTdeq && (s.ctx cid).th.launch == t.launch then
              s.onCtx cid (fun c => { c with asyncs := c.asyncs.set 1 (BitVec.ofNat 64 k) })
            else s) s
          .next (s.onLt core (fun t => { t with rounds := 0, roundAt := c.cyc }))
        else .next (s.onLt core (fun t => { t with rounds := if s.ltBlocked core t then n else 0, roundAt := t.roundAt + 256 }))
      | none => .next (s.onLt core (fun t => { t with roundAt := t.roundAt + 256 }))

end Sys2Proof.Machine
end

