-- ==== Sys2Proof/Machine/Messages.lean ====
section
/-! DEFINITION. Messages between contexts (major 0x28 and the steps that carry them): SEND, TSEND, TDEQ, TNULL,
ADVT, acceptance and resending, the inbox ring and the neighbour ports (R199 to R206, R244, R245, R361). -/

namespace Sys2Proof.Machine

open Sys2Proof

/-- A header (R202). -/
def header (core ctx kind status tag detail : Nat) : Word :=
  BitVec.ofNat 64 (core * 2 ^ 52 + ctx * 2 ^ 48 + kind * 2 ^ 44 + status * 2 ^ 40 + tag * 2 ^ 32 + detail)

/-- The destination operand of R200 is refused: bits [31:24] set, no such core, or another partition. -/
def State.badDest (s : State) (a : Word) : Bool :=
  bits a 24 8 != 0 || !isCore (bits a 0 12) || s.partOf (dieOf (bits a 0 12)) != s.partOf (dieOf s.here)

/-- A message of the context to the core waits to be resent, so that a later one must stay behind it (R201). -/
def State.behind (s : State) (cid dst : Nat) : Bool :=
  (s.core (coreOf cid)).msgResends.any (fun m => m.r.cid == cid && m.dst == dst)

/-- Sends a message, or queues it behind one that was refused (R200, R201). -/
def State.sendMsg (s : State) (r : Req) (dst ctx launch : Nat) (m : Rec) : State :=
  if s.behind r.cid dst then
    s.onCore (coreOf r.cid) (fun c => { c with msgResends := c.msgResends ++ [⟨r, dst, ctx, launch, m, none, 0⟩] })
  else s.send (coreOf r.cid) dst (.send r ctx launch m)

/-- The posted operation of a message of the running packet: `timed` is 1 for a TSEND. -/
def State.msgReq (s : State) (x : Word) (timed : Nat) : Req := ⟨s.cur, s.th.tid, s.seqNow, none, x, timed, .msg, 0⟩

/-- SEND (R200). -/
def execSend (a b : Reg) (s : State) : Out State :=
  let i : Instr := .send a b
  s.ordered <| s.withOps a b .zr (fun s' x y =>
    if s.badDest x then s.raise .badAddress x
    else if Config.unackMax ≤ s.me.unack then s.waitFor .posted
    else
      let dst := bits x 0 12
      let kind := if ctxOf s.cur == 0 then 5 else 0
      let r := s.msgReq x 0
      let m : Rec := ⟨header s.here (ctxOf s.cur) kind 0 (bits x 16 8) (bits x 32 32), y⟩
      s.done i (((s'.post r).countSent s.here s.th.launch).sendMsg r dst (bits x 12 4) s.th.launch m))

/-! ### Timed messages (R203 to R205) -/

/-- TSEND (R203, R360). -/
def execTsend (a b : Reg) (s : State) : Out State :=
  let i : Instr := .tsend a b
  s.ordered <| s.withOps a b .zr (fun s' x y =>
    match s.ltOf s.cur with
    | none => s.raise .badAddress x
    | some t =>
      match (if s.badDest x then none else t.outs.find? (fun o => o.dst == bits x 0 12)) with
      | none => s.raise .badAddress x
      | some o =>
        let tn := s.th.tnext
        if tn == BitVec.allOnes 64 || tn.ult (satAdd t.vt (BitVec.ofNat 64 o.l)) then s.raise .lookahead tn
        else if Config.unackMax ≤ s.me.unack then s.waitFor .posted
        else
          let r := s.msgReq x 1
          let m : Rec := ⟨header s.here (ctxOf s.cur) 1 0 (bits x 16 8) (bits x 32 32), y⟩
          let s1 := (((s'.post r).countSent s.here s.th.launch).onLt s.here (fun t => { t with sends := t.sends + 1 }))
          s.done i (if s.behind s.cur o.dst then
              s1.onCore s.here (fun c => { c with msgResends := c.msgResends ++ [⟨r, o.dst, 0, s.th.launch, m, some (tn, t.sends), 0⟩] })
            else s1.send s.here o.dst (.timed r s.th.launch ⟨tn, s.here, t.sends, m⟩)))

/-- The contexts that wait in TDEQ, in the order in which they began (R363). A woken one keeps its place until it has the head;
one that a trap or the loss of its context takes out of TDEQ has left. -/
def State.tdeqOrder (s : State) (core : Nat) : List Nat := ((s.core core).lt.map (fun t => t.waiters)).getD []

/-- No older waiter stands before a context. -/
def oldestOf (order : List Nat) (cid : Nat) : Bool :=
  match order with
  | [] => true
  | k :: _ => k == cid

/-- TDEQ's condition holds for a context: the head may go, and no older waiter stands before it (R204, R363). -/
def State.tdeqReady (s : State) (cid : Nat) : Bool :=
  match s.ltOf cid with
  | none => true
  | some t => !t.lane.isEmpty && t.headStamp.ult t.bound && oldestOf t.waiters cid

/-- A context that begins to wait enters the order at the end, before those of higher number that began in the same cycle (R363). -/
def State.insertWaiter (s : State) (cid : Nat) : List Nat → List Nat
  | [] => [cid]
  | k :: rest =>
    if (s.ctx k).parkedAt = (s.core (coreOf cid)).cyc && cid < k then cid :: k :: rest else k :: State.insertWaiter s cid rest

/-- The running context waits in TDEQ, and its core looks at its clocks (R363, R365). -/
def State.timeWait (s : State) : Out State :=
  let order := s.tdeqOrder s.here
  let began (s : State) : State :=
    (s.onLt s.here (fun t => { t with waiters := s.insertWaiter s.cur order })).withMe (fun c => { c with parkedAt := (s.core s.here).cyc })
  let s := if order.contains s.cur then s else began s
  .next ((s.withMe (fun c => { c with run := .waiting .time })).ltTouch s.here)

/-- TDEQ (R204). -/
def execTdeq (d : Reg) (s : State) : Out State :=
  let i : Instr := .tdeq d
  s.ordered <| match s.ltOf s.cur with
  | none => s.raise .badAddress 0
  | some t =>
    let order := s.tdeqOrder s.here
    match t.lane with
    | m :: rest =>
      if t.headStamp.ult t.bound && oldestOf order s.cur then
        let s1 := s.onLt s.here (fun t =>
          { t with vt := m.stamp, lane := rest, waiters := order.filter (fun k => k != s.cur) })
        let s1 := (s1.withTh (fun t => { t with msghdr := m.msg.hdr })).note s.cur 0x6 s.seqNow s.th.pc m.msg.hdr m.msg.data
        s.done i (s1.put d m.msg.data)
      else s.timeWait
    | [] => s.timeWait

/-- TNULL (R205): every output link has cause to announce. -/
def execTnull (s : State) : Out State :=
  s.ordered <| match s.ltOf s.cur with
  | none => s.raise .badAddress 0
  | some _ => s.done .tnull (s.onLt s.here (fun t => { t with outs := t.outs.map (fun o => { o with tnull := true }) }))

/-- ADVT (R205). -/
def execAdvt (a : Reg) (s : State) : Out State :=
  s.ordered <| s.withOps a .zr .zr (fun s' x _ =>
    match s.ltOf s.cur with
    | none => s.raise .badAddress x
    | some _ => s.done (.advt a) (s'.onLt s.here (fun t =>
        { t with vt := stampMax t.vt (stampMin x (stampMin t.bound t.headStamp)) })))

/-! ### Acceptance and resending (R201, R245) -/

/-- A refused message and every later one of its sender to the same core go back to be resent in order; after FERETRY + 1
refusals the sender is to park at its next boundary (R186, R201). -/
def State.pullBack (s : State) (r : Req) (dst : Nat) : State :=
  let core := coreOf r.cid
  let mine (m : Msg) : Option MsgResend :=
    if m.dst != dst then none
    else match m.body with
      | .send q ctx l x => if q.cid == r.cid then some ⟨q, dst, ctx, l, x, none, 0⟩ else none
      | .timed q l x => if q.cid == r.cid then some ⟨q, dst, 0, l, x.msg, some (x.stamp, x.ord), 0⟩ else none
      | _ => none
  let back := s.net.filterMap mine
  let back := match back with
    | [] => []
    | m :: rest => { m with r := { m.r with tries := m.r.tries + 1 }, delay := min 4096 (32 * 2 ^ m.r.tries) } :: rest
  let s := { s with net := s.net.filter (fun m => (mine m).isNone) }
  let s := s.onCore core (fun c => { c with msgResends := back ++ c.msgResends })
  if (s.ctx r.cid).th.tid == r.tid && decide ((s.ctx r.cid).th.feretry.toNat < r.tries + 1) then
    s.onCtx r.cid (fun c => { c with parkDue := some (.accepted r.seq r.addr) })
  else s

/-- A refused host message goes back to the head of its function's queue, and sits out one message for another core (R381; log 84). -/
def hostBack (m : HostMsg) (q : List HostMsg) : List HostMsg :=
  match q with
  | x :: rest => if bits x.dest 0 12 == bits m.dest 0 12 then m :: q else x :: m :: rest
  | [] => [m]

/-- MESSAGE_ACCEPT (R245): the destination core accepts a message, or refuses it. -/
def execMessageAccept (n : Nat) (s : State) : Out State :=
  match s.msgAt n with
  | some ⟨src, dst, .send r ctx launch m⟩ =>
    match (if s.severed src dst then none else s.ibAccept dst ⟨ctx, m⟩) with
    | some t =>
      let t := t.dropMsg n
      if hostCid ≤ r.cid then .next t
      else .next ((t.countRecv dst launch).send dst src (.ack r 1 none))
    | none =>
      if hostCid ≤ r.cid then
        .next ((s.dropMsg n).onFunc (r.cid - hostCid) (fun f =>
          { f with hmq := hostBack ⟨r.addr, m.data, if r.tries = 0 then 32 else min 4096 (2 * r.tries)⟩ f.hmq }))
      else .next (s.pullBack r dst)
  | _ => .next s

/-- MESSAGE_RESEND (R201): the core's oldest refused message goes out again, those behind it after it. -/
def execMessageResend (core : Nat) (s : State) : Out State :=
  match (s.core core).msgResends with
  | [] => .next s
  | e :: _ =>
    let mine (m : MsgResend) : Bool := m.r.cid == e.r.cid && m.dst == e.dst
    let go := (s.core core).msgResends.filter mine
    let s := s.onCore core (fun c => { c with msgResends := c.msgResends.filter (fun m => !mine m) })
    .next (go.foldl (fun s m => s.send core m.dst (match m.timed with
      | none => .send m.r m.ctx m.launch m.msg
      | some (st, o) => .timed m.r m.launch ⟨st, core, o, m.msg⟩)) s)

/-- TIMED_MESSAGE_ARRIVE (R361, R367): into the lane in order, refused by a full lane, discarded after the end of time. -/
def execTimedMessageArrive (n : Nat) (s : State) : Out State :=
  match s.msgAt n with
  | some ⟨src, dst, .timed r launch m⟩ =>
    let accept (t : State) : Out State := .next (((t.dropMsg n).countRecv dst launch).send dst src (.ack r 1 none))
    match (s.core dst).lt with
    | none => if s.severed src dst then .next (s.pullBack r dst) else accept s
    | some t =>
      if s.severed src dst then .next (s.pullBack r dst)
      else if t.launch != launch || t.timeEnded then accept s
      else if t.lane.length < Config.timedMax then
        accept (((s.ltTouch dst).onLt dst (fun t => { t with lane := insertTimed m t.lane })).ltTouch dst)
      else .next (s.pullBack r dst)
  | _ => .next s

/-- INBOX_REFILL (R245). -/
def execInboxRefill (core : Nat) (s : State) : Out State := .next (s.ibRefill core)

/-- PORT_WORD_ARRIVE (R206): the word enters the facing FIFO, into the place held for it. -/
def execPortWordArrive (n : Nat) (s : State) : Out State :=
  match s.msgAt n with
  | some ⟨_, _, .port cid d v⟩ =>
    let p := s.fifo cid d
    .next ((s.dropMsg n).setFifo cid d ⟨p.words ++ [v], p.held - 1⟩)
  | _ => .next s

/-- WATCH_WAKE (R192): a wake from a home sets the context's ready bit. -/
def execWatchWake (n : Nat) (s : State) : Out State :=
  match s.msgAt n with
  | some ⟨_, _, .wake cid⟩ => .next ((s.dropMsg n).onCtx cid (fun c => { c with ready := true }))
  | _ => .next s

/-- POLLED_WATCH (R191): the core reads its polled words; a changed value counts as a store. -/
def execPolledWatch (core : Nat) (s : State) : Out State :=
  .next ((List.range 16).foldl (fun s k =>
    let cid := core * 16 + k
    let fresh := (s.ctx cid).polled.mapVal (fun v => v)
    let now := List.map (fun (e : Nat × Word) => (e.1, s.peek e.1)) fresh
    if now == fresh then s else s.onCtx cid (fun c => { c with polled := now, ready := true })) s)

/-- The ring set-up of an MTS of INBASE (`size` false) or INSIZE takes effect (R244). -/
def State.setRing (s : State) (core : Nat) (size : Bool) (v : Word) : State :=
  s.onCore core (fun c =>
    let c := { c with ringW := 0, ringO := 0, ringUsed := 0 }
    if size then { c with insize := BitVec.ofNat 15 (bits v 3 15) } else { c with inoff := BitVec.ofNat 16 (bits v 3 16) })

/-- The ring holds no unconsumed entry (R244). -/
def State.ringEmpty (s : State) (core : Nat) : Bool := (s.ringPending core (fun _ => true)).isEmpty

/-- INBOX_RING_SET (R244). -/
def execInboxRingSet (core : Nat) (size : Bool) (v : BitVec 64) (s : State) : Out State :=
  if s.ringEmpty core then .next (s.setRing core size v) else .next s

end Sys2Proof.Machine
end

