-- ==== Sys2Proof/Machine/Bind.lean ====
section
/-! DEFINITION. Binding (R41 to R47, R345): the contexts that a cluster's dispenser is offered, stack slots, what
binding writes, and the records that engine commands deliver into a thread's lanes (R297, R311, R326). -/

namespace Sys2Proof.Machine

open Sys2Proof

/-! ### Commands of threads that are not in a context -/

/-- The context in which a command was issued: a suspended thread's commands carry an id of their own above 2^16
(R226). -/
def baseCid (cid : Nat) : Nat := cid % 65536

/-- The thread that owns an id, where a core holds it. -/
def State.heldOwner (s : State) (cid : Nat) : Option Parked :=
  let core := coreOf (baseCid cid)
  (s.heldBy core).find? (fun p => p.origin == cid)

/-- The thread that owns an id, with its engine state. -/
def State.owner (s : State) (cid : Nat) : Thread :=
  s.reloadThread (if cid < 65536 then (s.ctx cid).th else ((s.heldOwner cid).map (fun p => p.th)).getD Thread.zero)

/-- Changes the thread that owns an id, in its context or where its core holds it; engine state that a spilled thread has in
its save area is changed there (R226, R227). -/
def State.onOwner (s : State) (cid : Nat) (f : Thread → Thread) : State :=
  if cid < 65536 then s.onCtx cid (fun c => { c with th := f (s.reloadThread c.th) })
  else
    match s.heldOwner cid with
    | none => s
    | some p =>
      let (s, t) := if p.th.saved then s.saveEngine (f (s.reloadThread p.th)) else (s, f p.th)
      let g (q : Parked) : Parked := if q.origin == cid then { q with th := t } else q
      let core := coreOf (baseCid cid)
      (s.onCore core (fun c => { c with cache := c.cache.map g })).onDie (dieOf core)
        (fun d => { d with spill := d.spill.map (Spill.map g) })

/-- A header of a completion record (R311, R326). -/
def doneHeader (cid kind status : Nat) (q : BitVec 8) (detail : Nat) : Word :=
  header (coreOf (baseCid cid)) (ctxOf (baseCid cid)) kind status q.toNat detail

/-- The record of a matrix command (R326). -/
def MCmd.record (m : MCmd) : Rec :=
  let payload := if m.code = 2 then min m.sat 0xFFFF * 2 ^ 32 + min m.nan 0xFFFF * 2 ^ 16 + min m.bso 0xFFFF
    else if m.code = 3 then min m.sat 0xFFFF * 2 ^ 32 else 0
  ⟨doneHeader m.cid 3 m.status m.seq (m.code * 2 ^ 16 + m.k), BitVec.ofNat 64 payload⟩

/-- Delivers a matrix record to its thread. -/
def State.mqRecord (s : State) (m : MCmd) : State :=
  s.onOwner m.cid (fun t => { t with mq := t.mq ++ [m.record] })

/-- Drops a staged matrix command: a record with STATUS 0x3 (R322). -/
def State.dropStaged (s : State) (m : Option MCmd) : State :=
  match m with
  | some m => s.mqRecord { m with status := 3 }
  | none => s

/-! ### Stack slots (R46) -/

/-- Every thread that the package holds. -/
def State.threads (s : State) : List Thread :=
  s.ctxs.flatMap (fun e => (if e.2.run == .vacant then [] else [e.2.th])
      ++ (match e.2.reserved with | some t => [t] | none => []))
    ++ s.heldThreads.map (fun p => p.th)

/-- A stack slot of a launch is owned by a thread (R44, R46). -/
def State.slotOwned (s : State) (launch n : Nat) : Bool :=
  s.threads.any (fun t => t.launch == launch && t.slot == some n)

/-- g15 at a binding (R44, R46): the top of the slot, or 0 when the launch has no stack region. A thread that CTXS started has no
slot (R153), and R44 states no value for it: that is a free value of the thread's name and its entry (log 92). -/
def stackTop (l : Launch) (slot : Option Nat) (tid : Nat) (entry : Addr48) : Word :=
  if l.stksize = 0 then 0
  else
    match slot with
    | some n => l.stkbase + BitVec.ofNat 64 ((n + 1) * (l.stksize / 65536))
    | none => Config.freeTop tid entry

/-! ### Offered contexts (R44) -/

/-- A core whose scratchpad is kept for another launch binds nothing of this one (R59). -/
def State.keptFrom (s : State) (core launch : Nat) : Bool :=
  match (s.core core).retained with
  | some n => n != launch
  | none => false

/-- A context is idle for a launch. -/
def State.idleFor (s : State) (cid launch : Nat) : Bool :=
  (s.ctx cid).run == .idle && (s.ctx cid).th.launch == launch

/-- A vacant context is offered: nothing reserved, its slot not owned, nothing awaiting it (R44, R45, R53). -/
def State.vacantFor (s : State) (cid launch : Nat) : Bool :=
  (s.ctx cid).run == .vacant && (s.ctx cid).reserved.isNone && !s.slotOwned launch cid
    && (s.oldestArrival (coreOf cid)).isNone && (s.oldestRescued (coreOf cid)).isNone

/-- The place of a core among the cores of its die in canonical order (R41). -/
def placeInDie (core : Nat) : Nat := clusterOf core % 48 * 8 + placeInCluster core

/-- A context satisfies a task's pins (R41, R44). -/
def Task.pinOk (t : Task) (cid : Nat) : Bool :=
  let core := coreOf cid
  (match t.cluster with | some c => clusterOf core % 48 == c | none => true)
    && (match t.core with | some p => placeInDie core == p | none => true)
    && (match t.ctx with | some n => ctxOf cid == n | none => true)

/-- The context of a cluster to which a dispenser binds a task, or none: an idle one before a vacant one, in canonical
order (R44). -/
def State.target (s : State) (cluster : Nat) (t : Task) : Option Nat :=
  let all := ((coresOfCluster cluster).filter (fun c => !s.keptFrom c t.launch)).flatMap launchCtxs
  let ok := all.filter t.pinOk
  (ok.find? (fun cid => s.idleFor cid t.launch)).or (ok.find? (fun cid => s.vacantFor cid t.launch))

/-- A task's effective priority (R43): its priority, and one for every full 4,096 cycles, counted by TASK_AGE or not. -/
def Task.eff (t : Task) : Nat := min 3 (t.prio + t.age + t.spent / 4096)

/-- Task a is considered before task b (R43). -/
def Task.before (a b : Task) : Bool := decide (b.eff < a.eff) || (a.eff == b.eff && decide (a.born < b.born))

/-- Inserts a task in the order of R43. -/
def insertTask (t : Task) : List Task → List Task
  | [] => [t]
  | u :: rest => if t.before u then t :: u :: rest else u :: insertTask t rest

/-- Queued tasks in the order in which a dispenser considers them. -/
def dispenseOrder (ts : List Task) : List Task := ts.foldl (fun l t => insertTask t l) []

/-! ### What binding writes (R44) -/

/-- The first six general registers from argument words. -/
def argRegs (args : List Word) (g : Tab Word) : Tab Word :=
  (List.range 6).foldl (fun g k => g.set k (args.getD k 0)) g

/-- The matrix configuration after binding (R44, R314). -/
def MatCfg.fresh (prio : Nat) : MatCfg := ⟨0, false, false, prio, [], none, false⟩

/-- A thread after a binding of a task of its launch. -/
def Thread.bound (old : Thread) (l : Launch) (entry : Addr48) (args : List Word) (wid : Word) (slot : Option Nat) : Thread :=
  let g := argRegs args old.gpr
  { old with
    pc := entry
    gpr := g.set 15 (stackTop l slot old.tid entry)
    ix := []
    wid := wid
    nest := Thread.zero.nest
    launch := l.num
    prio := l.prio
    slot := slot
    migmask := l.tmask
    feretry := l.feretry
    ebudget := BitVec.ofNat 32 l.ebudget
    actcur := 0
    descs := []
    mat := MatCfg.fresh l.prio
    mxsat := 0
    mxnan := 0
    mxbso := 0
    tnext := 0
    comp := false
    routine := none
    sig := { old.sig with en := l.flags.getLsbD 3, isOpen := false } }

/-- The slot that a new thread bound to a vacant context owns (R46): the context's. -/
def slotFor (l : Launch) (cid : Nat) : Option Nat := if l.stksize = 0 then none else some cid

/-- BINDS a thread to an offered context (R44): a vacant one takes a new thread, an idle one keeps the registers that
binding does not write, those in its save area included. -/
def State.bind (s : State) (cid : Nat) (l : Launch) (entry : Addr48) (args : List Word) (wid : Word)
    (f : Thread → Thread) : State :=
  let c := s.ctx cid
  if c.run == .idle then
    let s := (s.dropStaged (c.th.mat.slot.map (fun m => { m with cid := cid }))).retireAll cid
    let c := (s.ctx cid).drainAll
    let t := f ((s.reloadThread c.th).bound l entry args wid c.th.slot)
    let s := s.setCtx cid { c with run := .runnable, injected := [], seq := c.seqNow, fetchPc := entry, th := t }
    s.note cid 0x4 c.seqNow entry wid 1
  else
    let (s, t) := s.nameThread (f (Thread.zero.bound l entry args wid (slotFor l cid)))
    s.occupy cid t []

end Sys2Proof.Machine
end

