-- ==== Sys2Proof/Machine/Sepia.lean ====
section
/-! DEFINITION. Activities and the sepia stack (major 0x2C and the steps of the sepia units; R157 to R165, R334 to
R355). -/

namespace Sys2Proof.Machine

open Sys2Proof

/-! ### Waiting and releasing -/

/-- Waits until the context's stores are acknowledged; what its buffer still holds is sent (R177, R237). -/
def State.storesDone (s : State) (k : State → Out State) : Out State :=
  if s.me.unack = 0 then k s else (s.flushAll s.cur).waitFor (.counts 15 0 15 15)

/-- A release at package scope (R161, R163, R182). -/
def State.pkRelease (s : State) (k : State → Out State) : Out State := s.releasing .pk k

/-- A thread detaches from its activity as ACTD does (R161). -/
def State.detaching (s : State) (k : State → Out State) : Out State :=
  if s.th.actcur = 0 then k s else s.pkRelease (fun s => k (s.detach s.cur))

/-! ### Records of an activity -/

/-- Changes the records of an activity on every die. -/
def State.onRecords (s : State) (h : Word) (f : SRec → SRec) : State :=
  { s with dies := s.dies.mapVal (fun d => { d with sepia := d.sepia.mapVal (fun r => if r.handle == h then f r else r) }) }

/-- Discards an activity's records on every die: VALID falls and nothing else changes (R341, R354). -/
def State.discardRecords (s : State) (h : Word) : State := s.onRecords h (fun r => { r with valid := false })

/-- The descriptor is freed and its handle becomes stale (R157, R334). -/
def State.freeAct (s : State) (h : Word) : State := s.onAct h (fun a => { a with st := .free })

/-- The state code of an activity (R158). -/
def ActSt.code : ActSt → Nat
  | .opened => 0 | .committing => 1 | .abandoning => 2 | .abandoned => 3 | .failed => 4 | .free => 15

/-- The state that a handle shows (R158). -/
def State.actState (s : State) (h : Word) : ActSt := ((s.actOf h).map (fun a => a.st)).getD .free

/-! ### ACTB, ACTJ, ACTD, ACTE, ACTA, ACTST -/

/-- The lowest free descriptor slot of a die (R353). -/
def freeActSlot (d : Die) : Option Nat :=
  (List.range Config.actMax).find? (fun n => match d.acts.find n with
    | some a => a.st == .free
    | none => true)

/-- The next generation of a slot (R157). -/
def nextGen (g : BitVec 32) : BitVec 32 := if g = BitVec.allOnes 32 then 1 else g + 1

/-- ACTB (R159). Log 97: domain 0 for a[63] = 1 in a context that has no launch. -/
def execActb (d a : Reg) (s : State) : Out State :=
  let i : Instr := .actb d a
  if s.th.comp then s.refusePriv i
  else
    s.withOps a .zr d (fun s' x _ =>
      if bits x 8 55 != 0 then s.raise .badAddress x
      else
        let die := dieOf s.here
        match freeActSlot (s.die die) with
        | none => s.done i (s'.put d 0)
        | some n =>
          let dom := if bit x 63 then ((s.launch s.th.launch).map (fun l => l.domain)).getD 0 else bits x 0 8
          let gen := nextGen ((((s.die die).acts.find n).map (fun a => a.gen)).getD 0)
          let act : Act := ⟨gen, .opened, dom, s.th.launch, 0⟩
          s.done i ((s'.onDie die (fun k => { k with acts := k.acts.set n act })).put d (handleOf die n act)))

/-- ACTJ (R160, R346). -/
def execActj (a : Reg) (s : State) : Out State :=
  let i : Instr := .actj a
  s.withOps a .zr .zr (fun s' x _ =>
    if s.th.comp || s.actState x != .opened || s.th.actcur == x then s.done i s'
    else
      s'.detaching (fun s' => s.done i ((s'.onAct x (fun a => { a with parts := a.parts + 1 })).withTh
        (fun t => { t with actcur := x }))))

/-- ACTD (R161). -/
def execActd (s : State) : Out State := s.detaching (fun s' => s.done .actd s')

/-- Commits an activity without participants: its records are discarded and the descriptor is freed (R162, R341). -/
def State.commit (s : State) (h : Word) : State :=
  ((s.onAct h (fun a => { a with st := .committing })).discardRecords h).freeAct h

/-- ACTE's wait for an activity is over (R162). -/
def State.acteReady (s : State) (h : Word) : Bool :=
  match s.actOf h with
  | none => true
  | some a => match a.st with
    | .opened => a.parts == 0
    | .committing | .abandoning => false
    | _ => true

/-- ACTE (R162). -/
def execActe (a : Reg) (s : State) : Out State :=
  let i : Instr := .acte a
  s.withOps a .zr .zr (fun s' x _ =>
    let go (s' : State) : Out State :=
      match s'.actState x with
      | .opened => if s'.acteReady x then s.done i (s'.commit x) else s'.waitFor (.activity x)
      | .committing | .abandoning => s'.waitFor (.activity x)
      | .abandoned => s.done i (s'.freeAct x)
      | .failed | .free => s.done i s'
    if s.th.actcur == x && x != 0 then s'.detaching go else go s')

/-- ACTA (R163). -/
def execActa (a : Reg) (s : State) : Out State :=
  let i : Instr := .acta a
  s.withOps a .zr .zr (fun s' x _ => s'.pkRelease (fun s' => s.done i (s'.abandon x)))

/-- ACTST (R158). -/
def execActst (d a : Reg) (s : State) : Out State :=
  let i : Instr := .actst d a
  s.withOps a .zr d (fun s' x _ => s.done i (s'.put d (BitVec.ofNat 64 (s.actState x).code)))

/-! ### CPUSH (R164, R339, R340) -/

/-- A block of n bytes that an instruction reads as loads: the state and memory key, or the precise cause. -/
def State.readBlock (s : State) (x : Word) (n : Nat) : Except Cause (State × Nat) :=
  match s.fetcherKey x false with
  | .error c => .error c
  | .ok k => match s.load k n with
    | none => .error .reconstruct
    | some (_, s) => .ok (s, k)

/-- The lowest free record slot of a die (R353). -/
def freeRecSlot (d : Die) : Option Nat :=
  (List.range (d.sepia.length + 1)).find? (fun n => match d.sepia.find n with
    | some r => r.spare && decide (n < Config.sepiaMax)
    | none => decide (n < Config.sepiaMax))

/-- The first record of a context on its die that a test accepts. -/
def State.recOf (s : State) (cid : Nat) (ok : SRec → Bool) : Option (Nat × SRec) :=
  List.find? (fun (e : Nat × SRec) => e.2.core == coreOf cid && e.2.ctx == ctxOf cid && ok e.2) (s.die (dieOf (coreOf cid))).sepia

/-- A record whose stamp is drawn is valid while its activity may still be undone: one that a discard or a cancellation has
overtaken (R341, R342, R350) stays discarded. -/
def State.keepsRecord (s : State) (h : Word) : Bool := s.actState h == .opened || s.actState h == .abandoning

/-- The thread whose push claimed a record slot has the stamp that was drawn for it (R339). -/
def Thread.drew (die n : Nat) (stamp : Word) (t : Thread) : Thread :=
  { t with pushes := t.pushes.map (fun p => if p.die == die && p.slot == n && p.stamp == 0 then { p with stamp := stamp } else p) }

/-- STAMP_DRAW (R336): the counter's die serves the draw of a context's push; the record is then written whole. -/
def execStampDraw (cid : Nat) (s : State) : Out State :=
  match s.recOf cid (fun r => r.stamp == 0) with
  | none => .next s
  | some (n, r) =>
    let dom := hDomain r.handle
    let x := (s.die (dom % 8)).doms.get dom ⟨1, none, none⟩
    let s := s.onDie (dom % 8) (fun d => { d with doms := d.doms.set dom { x with stamp := x.stamp + 1 } })
    let s := s.onDie (dieOf (coreOf cid)) (fun d =>
      { d with sepia := d.sepia.set n { r with stamp := x.stamp, valid := s.keepsRecord r.handle } })
    .next (s.onThreads (Thread.drew (dieOf (coreOf cid)) n x.stamp))

/-- CPUSH_DURABLE (R339): the written record is performed in HBM and acknowledged. -/
def execCpushDurable (cid : Nat) (s : State) : Out State :=
  match s.recOf cid (fun r => r.stamp != 0 && !r.durable) with
  | none => .next s
  | some (n, r) => .next (s.onDie (dieOf (coreOf cid)) (fun d => { d with sepia := d.sepia.set n { r with durable := true } }))

/-- The pending push that a CPUSH at an address made when it executed before (log 72): a re-executed CPUSH completes it, while
the CPUSH of a handler that a thread trapped into meanwhile makes a push of its own (R339). -/
def Thread.pendingPush (t : Thread) : Option Push := t.pushes.find? (fun p => p.pc == t.pc)

/-- The record of a push is durable, or has been discarded and its slot claimed again since. -/
def State.pushDurable (s : State) (p : Push) : Bool :=
  match (s.die p.die).sepia.find p.slot with
  | some r => r.durable || r.stamp != p.stamp
  | none => true

/-- A record slot of the running context's die is claimed for a push, which the thread keeps as pending (R339, R340). -/
def State.claimSlot (s : State) (n : Nat) (r : SRec) : State :=
  let die := dieOf s.here
  (s.onDie die (fun d => { d with sepia := d.sepia.set n r })).withTh (fun t => { t with pushes := t.pushes ++ [⟨t.pc, die, n, 0⟩] })

/-- CPUSH: it completes the pending push of an earlier execution, or after its checks claims a record slot and waits for the
draw of its stamp and for the record to become durable (R164, R339, R340). -/
def execCpush (a b : Reg) (s : State) : Out State :=
  let i : Instr := .cpush a b
  if s.th.comp then s.refusePriv i
  else
    s.withOps a b .zr (fun s' x y =>
      let h := s.th.actcur
      match s.th.pendingPush with
      | some p =>
        if s.pushDurable p then s.done i (s'.withTh (fun t => { t with pushes := t.pushes.erase p }))
        else s'.waitFor .durable
      | none =>
      if h = 0 then s.raise .badAddress 0
      else if bits x 0 2 != 0 then s.raise .misaligned x
      else if bits y 0 5 != 0 then s.raise .misaligned y
      else if bits x 48 16 != 0 then s.raise .badAddress x
      else if s.badAddr s.cur y then s.raise .badAddress y
      else
        s'.storesDone (fun s' =>
          if s'.actState h != .opened then s.done i s'
          else
            match s'.readBlock y 32 with
            | .error c => s.raiseAt c y
            | .ok (s', k) =>
              match freeRecSlot (s'.die (dieOf s.here)) with
              | none => s.raise .sepiaFull h
              | some n =>
                let args := (List.range 4).map (fun j => s'.mem.word (k + 8 * j))
                let r : SRec := ⟨toAddr x, h, 0, args, s.here, ctxOf s.cur, false, false, false, false, false⟩
                (s'.claimSlot n r).waitFor .durable))

/-! ### The unwind (R344 to R349) -/

/-- Everything that HALT waits for (R151). -/
def State.drained (s : State) (cid : Nat) : Bool :=
  let c := s.ctx cid
  c.unack == 0 && c.outld == 0 && c.th.settled && s.outv cid == 0 && s.outcp cid == 0 && s.outmx cid == 0

/-- Waits as HALT does. -/
def State.draining (s : State) (k : State → Out State) : Out State :=
  if s.drained s.cur then k s else (s.flushAll s.cur).waitFor .drained

/-- Changes a domain's unwind. -/
def State.onDom (s : State) (dom : Nat) (f : Dom → Dom) : State :=
  s.onDie (dom % 8) (fun d => { d with doms := d.doms.set dom (f (d.doms.get dom ⟨1, none, none⟩)) })

/-- The unwind of a domain. -/
def State.dom (s : State) (dom : Nat) : Dom := (s.die (dom % 8)).doms.get dom ⟨1, none, none⟩

/-- A routine returned status 0: DONE set and VALID cleared, and the domain's next choice may follow (R354). -/
def State.routineDone (s : State) (die slot : Nat) : State :=
  match (s.die die).sepia.find slot with
  | none => s
  | some r =>
    (s.onDie die (fun d => { d with sepia := d.sepia.set slot { r with done := true, valid := false } })).onDom
      (hDomain r.handle) (fun x => { x with running := none })

/-- CRET (R165, R349). -/
def execCret (a : Reg) (s : State) : Out State :=
  let i : Instr := .cret a
  if !s.th.comp then s.refusePriv i
  else
    s.withOps a .zr .zr (fun s' x _ =>
      s'.draining (fun s' => s'.pkRelease (fun s' =>
        let fin (t : State) : State :=
          let t := ((t.orphanAll s.cur).dropWatches s.cur).free s.cur
          match s.th.routine with
          | none => t
          | some (die, slot) => if x = 0 then t.routineDone die slot else t.routineFails die slot x
        match s.done i s' with
        | .next t => if s.sigFails i false then .next t else .next (fin t)
        | o => o)))

/-- The unwind set of a domain: handles of its abandoning activities without participants (R344). -/
def State.unwindSet (s : State) (dom : Nat) : List Word :=
  s.dies.flatMap (fun e => List.filterMap (fun (a : Nat × Act) =>
    if a.2.st == .abandoning && a.2.domain == dom && a.2.parts == 0 then some (handleOf e.1 a.1 a.2) else none) e.2.acts)

/-- The valid records of an activity: die, slot, record. -/
def State.validRecs (s : State) (h : Word) : List (Nat × Nat × SRec) :=
  s.dies.flatMap (fun e => List.filterMap (fun (r : Nat × SRec) =>
    if r.2.handle == h && r.2.valid && !r.2.done && !r.2.skipped then some (e.1, r.1, r.2) else none) e.2.sepia)

/-- The record of the largest stamp. -/
def lastStamp : List (Nat × Nat × SRec) → Option (Nat × Nat × SRec)
  | [] => none
  | r :: rest =>
    match lastStamp rest with
    | none => some r
    | some q => if r.2.2.stamp.ult q.2.2.stamp then some q else some r

/-- Posts a record's routine on its die (R345). -/
def State.postRoutine (s : State) (die slot : Nat) (r : SRec) : State :=
  let launch := ((s.actOf r.handle).map (fun a => a.launch)).getD 0
  (s.onDie die (fun d => { d with posts := d.posts ++ [(slot, launch)] })).onDom (hDomain r.handle)
    (fun x => { x with running := some (die, slot) })

/-- UNWIND_CHOOSE (R344, R347): while a domain is not frozen and no routine of it is under way, activities without a
valid record become abandoned, and the record of the largest stamp is posted. -/
def execUnwindChoose (domain : BitVec 8) (s : State) : Out State :=
  let dom := domain.toNat
  let x := s.dom dom
  if x.frozen.isSome || x.running.isSome then .next s
  else
    let hs := s.unwindSet dom
    let s := (hs.filter (fun h => (s.validRecs h).isEmpty)).foldl (fun s h => s.onAct h (fun a => { a with st := .abandoned })) s
    match lastStamp (hs.flatMap s.validRecs) with
    | none => .next s
    | some (die, slot, r) => .next (s.postRoutine die slot r)

/-- The context of a cluster to which a posted routine binds: its slot and launch, its launch's record and its own, and the
context. -/
def State.postTarget (s : State) (cluster : Nat) (post : Nat × Nat) : Option ((Nat × Nat) × Launch × SRec × Nat) :=
  match s.launch post.2, (s.die (cluster / 48)).sepia.find post.1 with
  | some l, some r =>
    (s.target cluster ⟨post.2, r.routine, r.args, 0, 3, none, none, none, false, 0, 0, 0⟩).map (fun cid => (post, l, r, cid))
  | _, _ => none

/-- The oldest routine posted on a cluster's die that has a context in it: it stands before every queued task (R345). -/
def State.nextPost (s : State) (cluster : Nat) : Option ((Nat × Nat) × Launch × SRec × Nat) :=
  (s.die (cluster / 48)).posts.findSome? (s.postTarget cluster)

/-- ROUTINE_BIND (R345, R355): a cluster's dispenser binds the oldest posted routine that it has a context for. -/
def execRoutineBind (cluster : Nat) (s : State) : Out State :=
  let die := cluster / 48
  match s.nextPost cluster with
  | none => .next s
  | some (post, l, r, cid) =>
    let s := s.onDie die (fun d => { d with posts := d.posts.erase post })
    let s := s.onLaunch post.2 (fun l => { l with tasks := l.tasks + 1 })
    .next (s.bind cid l r.routine r.args 0 (fun t =>
      { t with
        gpr := (t.gpr.set 4 r.handle).set 5 r.stamp
        comp := true
        routine := some (die, post.1) }))

/-! ### SEPIACTL (R350) -/

/-- The handle that a SEPIACTL write names, and the record that froze its domain when that record belongs to it. -/
def State.sepiaTarget (s : State) (core : Nat) (v : Word) : Option (Word × Nat × Nat × SRec) :=
  let die := bits v 16 3
  if die != dieOf core then none
  else
    match (s.die die).acts.find (bits v 8 8) with
    | none => none
    | some a =>
      if a.st == .free || a.gen != hi32 v then none
      else
        let h := handleOf die (bits v 8 8) a
        match (s.dom a.domain).frozen with
        | none => none
        | some (rd, slot, _) =>
          match (s.die rd).sepia.find slot with
          | some r => if r.handle == h then some (h, rd, slot, r) else none
          | none => none

/-- What SEPIACTL shows after a write (R350): the fields written, OP reading as 0, and ERR. -/
def State.sepiaNote (s : State) (core : Nat) (v : Word) (err : Bool) : State :=
  s.onCore core (fun c =>
    { c with
      sepiaErr := err
      sepiaName := if err then c.sepiaName else BitVec.ofNat 64 (bits v 32 32 * 2 ^ 32 + bits v 16 3 * 2 ^ 16 + bits v 8 8 * 2 ^ 8) })

/-- Thaws a domain. -/
def State.thaw (s : State) (h : Word) : State := s.onDom (hDomain h) (fun x => { x with frozen := none })

/-- A write of SEPIACTL by a core's context 0 (R350). -/
def State.sepiactl (s : State) (core : Nat) (v : Word) : State :=
  let op := bits v 28 3
  if 4 ≤ op then s.sepiaNote core v true
  else
    match s.sepiaTarget core v with
    | none => s.sepiaNote core v true
    | some (h, die, slot, r) =>
      let s := s.sepiaNote core v false
      if op = 0 then s
      else
      let s := s.thaw h
      if op = 1 then s.postRoutine die slot r
      else if op = 2 then
        s.onDie die (fun d => { d with sepia := d.sepia.set slot { r with skipped := true, valid := false } })
      else (s.onAct h (fun a => { a with st := .failed })).discardRecords h

/-- SEPIACTL_RETRY (R350). -/
def execSepiactlRetry (core : Nat) (v : BitVec 64) (s : State) : Out State :=
  .next (if bits v 28 3 = 1 then s.sepiactl core v else s)
/-- SEPIACTL_SKIP (R350). -/
def execSepiactlSkip (core : Nat) (v : BitVec 64) (s : State) : Out State :=
  .next (if bits v 28 3 = 2 then s.sepiactl core v else s)
/-- SEPIACTL_FAIL (R350). -/
def execSepiactlFail (core : Nat) (v : BitVec 64) (s : State) : Out State :=
  .next (if bits v 28 3 = 3 then s.sepiactl core v else s)

end Sys2Proof.Machine
end

