-- ==== Sys2Proof/Machine/System.lean ====
section
/-! DEFINITION. System registers (R166 to R169 and the rules that give each one's fields), traps and their returns
(R170, R171), settlement (R172, R223), scrubbing (R173, R257), SLATECTL (R255), and the steps that are halves of a
system-register access. -/

namespace Sys2Proof.Machine

open Sys2Proof

/-! ### Stops of a whole core (R229, R393) -/

/-- Requests that take effect at their home before their answer is back: their packet has performed once it has sent them. -/
def ReqOp.takes : ReqOp → Bool
  | .ldf | .reserve .. | .arv .. => true
  | _ => false

/-- A packet that has begun to perform: a request of it takes effect at its home, or a divide has made its pops (R75, R137). Log 60:
one that only reads, watches or waits at stage 6 has not performed. -/
def Ctx.performing (c : Ctx) : Bool :=
  (match c.bay with
    | some (_, r) => r.op.takes
    | none => false)
    || c.run == .waiting .divided

/-- The wave that deletes what has not been performed in a context of a core that stops: the packets behind one that has begun
to perform, which stays, or all of them. -/
def Ctx.haltWave (c : Ctx) : Wave := if c.performing then ⟨c.seqNow, nextPc c.th.pc⟩ else ⟨c.seqNow - 1, c.th.pc⟩

/-- A context of a core that stops: packets that have not been performed are deleted and their instructions are
fetched again (R229, R393). -/
def Ctx.halted (c : Ctx) : Ctx :=
  let c' := c.launchWave c.haltWave
  if c.performing then { c' with bay := c.bay, answered := c.answered, owed := c.owed }
  else
    match c.run with
    | .waiting .suspend => c'
    | .waiting _ => { c' with run := .runnable }
    | _ => c'

/-- Every context of a core drops what it has not performed; what has been performed retires. -/
def State.haltCore (s : State) (core : Nat) : State :=
  (List.range 16).foldl (fun s n =>
    let cid := core * 16 + n
    if (s.ctx cid).holdsThread then
      let s := s.retireAll cid
      (s.noteWave cid (s.ctx cid).haltWave.s).onCtx cid Ctx.halted
    else s) s

/-- A debug stop (R393, R394). -/
def State.debugStop (s : State) (core why ctx : Nat) : State :=
  (s.haltCore core).onCore core (fun c =>
    { c with dbg := { c.dbg with stopped := true, why := why, ctx := ctx, stepping := none } })

/-! ### Comparators (R394, R395) -/

/-- The lowest comparator that matches an address (R395). -/
def bkptHit (d : Dbg) (ctx : Nat) (pc : Addr48) : Option Nat :=
  (List.range 4).find? (fun n =>
    let v := d.bkpt.get n 0
    bit v 63 && (bit v 61 || bits v 48 4 == ctx) && bits v 2 46 == pc.toNat / 4)

/-- The comparator that matches the packet of the running context. -/
def State.bkptNow (s : State) : Option Nat := bkptHit (s.core s.here).dbg (ctxOf s.cur) s.th.pc

/-- DETAIL of a comparator's BREAK (R394). -/
def bkptDetail (n : Nat) : Word := BitVec.ofNat 64 (0x10000 + n)

/-- A comparator match (R394): a debug stop, or BREAK. -/
def State.bkptTaken (s : State) (n : Nat) : State :=
  if bit ((s.core s.here).dbg.bkpt.get n 0) 62 then s.debugStop s.here 3 (ctxOf s.cur) else s.trap .break_ (bkptDetail n)

/-- The packet in the stage 6 bay has met a precise cause: it goes on to its boundary with it, and nothing is done (R66, R91). -/
def State.carry (s : State) (c : Cause) (detail : Word) : State :=
  s.withMe (fun m => { m with carried := some (c, detail), bay := none, run := .runnable })

/-- The packet of a request in the stage 6 bay goes on to stage 10, where a comparator may match it. One whose request takes
effect at its home has been compared before it sent that (R394: a matching packet is not performed). -/
def State.topped (s : State) (r : Req) (o : Out State) : Out State :=
  match (if r.op.takes then none else s.bkptNow) with
  | some n => .next (s.carry .break_ (bkptDetail n))
  | none => o

/-! ### Access (R116, R167) -/

/-- Registers of access S: an MFS or MTS outside context 0 raises PRIVILEGE (R116). -/
def sysS (n : Nat) : Bool :=
  n == 0x012 || n == 0x013 || n == 0x01B || n == 0x01C || n == 0x024 || n == 0x034 || n == 0x060 || n == 0x061
    || n == 0x070 || n == 0x071 || n == 0x080 || n == 0x0B0

/-- Registers whose only writable fields are S: an MTS outside context 0 raises PRIVILEGE (R116). -/
def sysSWrite (n : Nat) : Bool := sysS n || n == 0x011 || n == 0x028 || n == 0x0B1

/-! ### Reading -/

/-- The context whose scoreboard a context sees (R220): its own, or in context 0 with CAUSE.DLG the delegating one. -/
def State.scoreOwner (s : State) (cid : Nat) : Nat :=
  if ctxOf cid == 0 && bit (s.ctx cid).th.cause 13 then
    match (s.core (coreOf cid)).presented with
    | some d => match d.src with
      | some n => coreOf cid * 16 + n
      | none => cid
    | none => cid
  else cid

/-- STATUS (R168). -/
def State.statusWord (s : State) (cid : Nat) : Word :=
  let t := (s.ctx cid).th
  BitVec.ofNat 64 ((if t.comp then 32 else 0) + (if t.inTrap then 16 else 0) + (if ctxOf cid = 0 then 1 else 0))

/-- CORE (R24). -/
def coreWord (core : Nat) : Word :=
  BitVec.ofNat 64 ((if hasX core then 0x7F else 0x3F) * 2 ^ 16 + (if isIndigo (dieOf core) then 2 ^ 12 else 0) + core)

/-- The state code of a slate group (R254). -/
def Slate.code : Slate → Nat
  | .normal => 0 | .degraded => 1 | .unprotected => 2 | .lost => 3

/-- SLATEST (R256). -/
def Core.slatest (c : Core) : Word :=
  let st (g : Nat) : Nat := (groupOf c g).st.code
  let rb (g : Nat) : Nat := match (groupOf c g).st with
    | .degraded | .lost => (groupOf c g).rbank % 4
    | _ => 0
  let four (f : Nat → Nat) : Nat := f 0 + 4 * f 1 + 16 * f 2 + 64 * f 3
  BitVec.ofNat 64 ((if c.slateErr then 2 ^ 63 else 0)
    + (c.scrubs.foldl (fun n e => n + e.2) 0) % 2 ^ 14 * 2 ^ 32
    + c.cecnt.toNat * 2 ^ 24 + c.uecnt.toNat * 2 ^ 16 + four rb * 2 ^ 8 + four st)

/-- SEPIACTL (R350). -/
def Core.sepiactl (c : Core) : Word := c.sepiaName ||| (if c.sepiaErr then 0x80000000#64 else 0)

/-- A profiling accumulator (R402). -/
def Core.profWord (c : Core) (k : Nat) : Word :=
  let p := c.prof.get k (0, 0)
  BitVec.ofNat 64 (p.1.toNat * 2 ^ 40 + p.2.toNat)

/-- A count of R177 as R178 shows it. -/
def countWord (n : Nat) : Word := BitVec.ofNat 64 (n % 65536)

/-- The value of a system register for a context (R167). -/
def State.sysRead (s : State) (cid n : Nat) : Word :=
  let t := (s.ctx cid).th
  let k := coreOf cid
  let c := s.core k
  if 0x40 ≤ n && n ≤ 0x4F then
    match (s.ctx (s.scoreOwner cid)).th.score.find (n - 0x40) with
    | some e => e.word
    | none => 0
  else if 0x90 ≤ n && n ≤ 0xAF then c.profWord (n - 0x90)
  else match n with
    | 0x000 => s.statusWord cid
    | 0x001 => coreWord k
    | 0x002 => BitVec.ofNat 64 (ctxOf cid)
    | 0x003 => if ctxOf cid = 0 then 0 else BitVec.ofNat 64 (t.prio % 4 * 2 ^ 32 + t.launch % 2 ^ 32)
    | 0x004 => s.gtime k
    | 0x008 => t.fpflags.zeroExtend 64
    | 0x009 => t.fpmode.zeroExtend 64
    | 0x00A => t.feretry.zeroExtend 64
    | 0x00B => countWord (s.ctx cid).unack
    | 0x00C => countWord (s.ctx cid).outld
    | 0x00D => countWord (s.outst cid)
    | 0x00E => countWord (s.outcp cid)
    | 0x00F => countWord (s.outmx cid)
    | 0x010 => t.msghdr
    | 0x011 => t.ebudget.zeroExtend 64
    | 0x012 => c.ecost
    | 0x013 => BitVec.ofNat 64 ((if c.ehold then 2 ^ 16 else 0) + c.eshare.toNat)
    | 0x014 => t.actcur
    | 0x018 => match s.ltOf cid with | some l => l.vt | none => 0
    | 0x019 => match s.ltOf cid with | some l => l.bound | none => 0
    | 0x01A => t.tnext
    | 0x01B => c.tquant.zeroExtend 64
    | 0x01C => c.trounds.zeroExtend 64
    | 0x020 => t.mxsat.zeroExtend 64
    | 0x021 => t.mxnan.zeroExtend 64
    | 0x022 => t.mxbso.zeroExtend 64
    | 0x023 => t.mxthr.zeroExtend 64
    | 0x024 => c.accown.zeroExtend 64
    | 0x028 => t.sig.word
    | 0x030 => t.tvec.zeroExtend 64 <<< 2
    | 0x031 => t.epc.zeroExtend 64 <<< 2
    | 0x032 => t.cause
    | 0x033 => t.detail
    | 0x034 => c.deleg
    | 0x050 => t.migmask.zeroExtend 64
    | 0x060 => c.inoff.zeroExtend 64 <<< 3
    | 0x061 => c.insize.zeroExtend 64 <<< 3
    | 0x070 => BitVec.ofNat 64 (c.thresh.toNat * 2 ^ 16 + c.sbank.toNat)
    | 0x071 => c.slatest
    | 0x080 => c.sepiactl
    | 0x0B0 => c.trcctl
    | 0x0B1 => c.trclost
    | _ => 0

/-! ### Slate control (R255, R256) -/

/-- Retires a data bank of a normal group; anything else is refused (R255). -/
def State.retireBank (s : State) (core bank : Nat) : State :=
  s.onCore core (fun c =>
    if (groupOf c (bank / 4)).st == .normal then { c.failBank bank with slateErr := false } else { c with slateErr := true })

/-- Fails the parity bank of a group that is not lost (R255). -/
def State.failParityBank (s : State) (core bank : Nat) : State :=
  s.onCore core (fun c =>
    if (groupOf c (bank / 4)).st == .lost then { c with slateErr := true }
    else { c.failBank (parityBank (bank / 4)) with slateErr := false })

/-- Clears the error counts of a core (R255). -/
def State.clearErrors (s : State) (core : Nat) : State :=
  s.onCore core (fun c => { c with bankErrs := [], cecnt := 0, uecnt := 0, slateErr := false })

/-- A write of SLATECTL (R255). -/
def State.slatectl (s : State) (core : Nat) (v : Word) : State :=
  let s := s.onCore core (fun c => { c with thresh := BitVec.ofNat 16 (bits v 16 16), sbank := BitVec.ofNat 4 (bits v 0 4) })
  match bits v 6 2 with
  | 1 => s.retireBank core (bits v 0 4)
  | 2 => s.failParityBank core (bits v 0 4)
  | 3 => s.clearErrors core
  | _ => s

/-- A write of SLATEST sets the two counts (R256). -/
def State.slatestSet (s : State) (core : Nat) (v : Word) : State :=
  s.onCore core (fun c => { c with cecnt := BitVec.ofNat 8 (bits v 24 8), uecnt := BitVec.ofNat 8 (bits v 16 8) })

/-- SLATE_RETIRE_BANK (R255). -/
def execSlateRetireBank (core : Nat) (bank : BitVec 4) (s : State) : Out State := .next (s.retireBank core bank.toNat)
/-- SLATE_FAIL_PARITY (R255). -/
def execSlateFailParity (core : Nat) (bank : BitVec 4) (s : State) : Out State := .next (s.failParityBank core bank.toNat)
/-- SLATE_CLEAR_COUNTS (R255). -/
def execSlateClearCounts (core : Nat) (s : State) : Out State := .next (s.clearErrors core)
/-- SLATEST_WRITE (R256). -/
def execSlatestWrite (core : Nat) (v : BitVec 64) (s : State) : Out State := .next (s.slatestSet core v)

/-! ### Writing -/

/-- Clears a matrix counter of a context (R328). -/
def State.clearMx (s : State) (cid which : Nat) : State :=
  s.onCtx cid (fun c =>
    { c with th := match which with
        | 0 => { c.th with mxsat := 0 }
        | 1 => { c.th with mxnan := 0 }
        | _ => { c.th with mxbso := 0 } })

/-- Clears a profiling accumulator (R402). -/
def State.clearProf (s : State) (core k : Nat) : State := s.onCore core (fun c => { c with prof := c.prof.set k (0, 0) })

/-- A write of TRCCTL (R396): HLT falls, and a change of BASE, SIZE or ASN sets WOFF to 0. -/
def State.setTrcctl (s : State) (core : Nat) (v : Word) : State :=
  s.onCore core (fun c =>
    { c with
      trcctl := v &&& 0xFFFFFFFFFFFFFC00#64
      trclost := if v.toNat / 2 ^ 12 != c.trcctl.toNat / 2 ^ 12 then (lo32 c.trclost).zeroExtend 64 else c.trclost })

/-- FPMODE and FPFLAGS writes (R266, R267). -/
def State.setFpmode (s : State) (cid : Nat) (v : Word) : State :=
  s.onCtx cid (fun c => { c with th := { c.th with fpmode := v.truncate 2 } })
def State.setFpflags (s : State) (cid : Nat) (v : Word) : State :=
  s.onCtx cid (fun c => { c with th := { c.th with fpflags := v.truncate 5 } })

/-- A write of a register by a context that may write it; fields that cannot be written keep their values (R5, R107,
R167). -/
def State.sysWrite (s : State) (cid n : Nat) (v : Word) : State :=
  let k := coreOf cid
  let th (f : Thread → Thread) : State := s.onCtx cid (fun c => { c with th := f c.th })
  if 0x90 ≤ n && n ≤ 0xAF then s.clearProf k (n - 0x90)
  else match n with
    | 0x008 => s.setFpflags cid v
    | 0x009 => s.setFpmode cid v
    | 0x00A => th (fun t => { t with feretry := v.truncate 16 })
    | 0x011 => th (fun t => { t with ebudget := v.truncate 32 })
    | 0x012 => s.onCore k (fun c => { c with ecost := v })
    | 0x013 => s.onCore k (fun c => { c with ehold := bit v 16, eshare := v.truncate 16 })
    | 0x01A => th (fun t => { t with tnext := v })
    | 0x01B => s.onCore k (fun c => { c with tquant := v.truncate 32 })
    | 0x01C => s.onCore k (fun c => { c with trounds := v.truncate 16 })
    | 0x020 => s.clearMx cid 0
    | 0x021 => s.clearMx cid 1
    | 0x022 => s.clearMx cid 2
    | 0x023 => th (fun t => { t with mxthr := v.truncate 48 })
    | 0x024 => s.onCore k (fun c => { c with accown := v.truncate 16 })
    | 0x028 => th (fun t => { t with sig := { t.sig with en := bit v 0 } })
    | 0x030 => th (fun t => { t with tvec := v.extractLsb' 2 46 })
    | 0x031 => th (fun t => { t with epc := v.extractLsb' 2 46 })
    | 0x034 => s.onCore k (fun c => { c with deleg := v })
    | 0x050 => th (fun t => { t with migmask := v.truncate 16 })
    | 0x060 => s.setRing k false v
    | 0x061 => s.setRing k true v
    | 0x070 => s.slatectl k v
    | 0x071 => s.slatestSet k v
    | 0x080 => s.sepiactl k v
    | 0x0B0 => s.setTrcctl k v
    | 0x0B1 => s.onCore k (fun c => { c with trclost := v })
    | _ => s

/-- What an access of a register waits for (R244, R266, R267, R396). -/
def State.sysWait (s : State) (n : Nat) (write : Bool) : Option Wait :=
  if n == 0x008 || (write && n == 0x009) then (if s.outv s.cur = 0 then none else some .vdone)
  else if write && (n == 0x060 || n == 0x061) then (if s.ringEmpty s.here then none else some .ring)
  else if write && n == 0x0B0 then (if (s.core s.here).traceIdle then none else some .trace)
  else none

/-- MFS (R166). -/
def execMfs (d : Reg) (r : BitVec 12) (s : State) : Out State :=
  let i : Instr := .mfs d r
  let n := r.toNat
  if ctxOf s.cur != 0 && sysS n then s.refusePriv i
  else
    s.withOps .zr .zr d (fun s' _ _ =>
      match s.sysWait n false with
      | some w => s.waitFor w
      | none => s.done i (s'.put d (s.sysRead s.cur n)))

/-- MTS (R166). -/
def execMts (a : Reg) (r : BitVec 12) (s : State) : Out State :=
  let i : Instr := .mts a r
  let n := r.toNat
  if ctxOf s.cur != 0 && sysSWrite n then s.refusePriv i
  else
    match s.sysWait n true with
    | some w => s.waitFor w
    | none => s.withOps a .zr .zr (fun s' x _ => s.done i (s'.sysWrite s.cur n x))

/-- FPMODE_WRITE (R266). -/
def execFpmodeWrite (cid : Nat) (v : BitVec 64) (s : State) : Out State :=
  .next (if s.outv cid = 0 then s.setFpmode cid v else s)
/-- FPFLAGS_ACCESS (R267): a read leaves the state as it is. -/
def execFpflagsAccess (cid : Nat) (w : Option (BitVec 64)) (s : State) : Out State :=
  match w with
  | none => .next s
  | some v => .next (if s.outv cid = 0 then s.setFpflags cid v else s)
/-- MX_COUNTER_CLEAR (R328). -/
def execMxCounterClear (cid : Nat) (which : BitVec 2) (s : State) : Out State :=
  .next (if which = 3 then s else s.clearMx cid which.toNat)
/-- PROF_CLEAR (R402). -/
def execProfClear (core : Nat) (k : BitVec 5) (s : State) : Out State := .next (s.clearProf core k.toNat)
/-- TRCCTL_WRITE (R396): once every record already queued has been written. -/
def execTrcctlWrite (core : Nat) (v : BitVec 64) (s : State) : Out State :=
  .next (if (s.core core).traceIdle then s.setTrcctl core v else s)

/-- WINDOW_INVALIDATE (R248): context 0 of a core sends a sharer an invalidation of a line. -/
def execWindowInvalidate (core : Nat) (code : BitVec 12) (line : Nat) (s : State) : Out State :=
  let l := globalBase + line % 2 ^ 48 / 256 * 256
  let c := s.ctx (core * 16)
  .next ((s.post ⟨core * 16, c.th.tid, c.seqNow, none, BitVec.ofNat 64 line, l, .store [] 1, 0⟩).sendInval core code.toNat l true)
/-- WINDOW_OVERFLOW_POP (R248). -/
def execWindowOverflowPop (core : Nat) (s : State) : Out State := .next (s.popOverflow core).2
/-- WINDOW_OVERFLOW_RELEASE (R248). -/
def execWindowOverflowRelease (core line : Nat) (s : State) : Out State :=
  .next (s.releaseHeld core (globalBase + line % 2 ^ 48 / 256 * 256))

/-! ### TRAP, BRK, TRET (R170, R171) -/

/-- TRAP (R170). -/
def execTrap (i : BitVec 16) (s : State) : Out State := s.raise .trap (i.zeroExtend 64)

/-- BRK (R170, R394): BREAK, or a debug stop where the debug module has claimed it. -/
def execBrk (i : BitVec 16) (s : State) : Out State :=
  if (s.core s.here).dbg.claim then .next ((s.counts .break_).debugStop s.here 2 (ctxOf s.cur)) else s.raise .break_ (i.zeroExtend 64)

/-- TRET (R171): PRIVILEGE outside a handler; with an unsettled entry it goes on at PC + 4; else it returns. Log 73: in a
delegation, an unsettled entry of the delegating context or of context 0 itself is such an entry. -/
def execTret (s : State) : Out State :=
  if !s.th.inTrap then s.refusePriv .tret
  else if !s.th.settled || (ctxOf s.cur == 0 && !(s.ctx (s.scoreOwner s.cur)).th.settled) then s.done .tret s
  else
    let npc : Addr48 := s.th.epc.zeroExtend 48 <<< 2
    .next ((s.tret.withTh (fun t => { t with sig := { t.sig with isOpen := false } })).advance .tret npc)

/-! ### SETTLE (R172, R223) -/

/-- Takes an operation off UNACK. -/
def Ctx.unpost (c : Ctx) (r : Req) : Ctx :=
  match c.posted.find? (fun p => sameReq p r) with
  | some p => { c with posted := c.posted.erase p }
  | none => c

/-- A late request leaves OUTLD; an acquire among them no longer holds younger operations (R182, R223). -/
def Ctx.unlate (c : Ctx) (q : BitVec 8) : Ctx :=
  { c with lates := c.lates.erase q, barred := if c.barred == some q then none else c.barred }

/-- The home of an address for a context, its own core when there is none. -/
def State.homeFor (s : State) (cid : Nat) (x : Word) : Nat := (s.homeOf cid x).getD (coreOf cid)

/-- Sends an operation anew (R172, R223). -/
def State.replay (s : State) (cid : Nat) (op : Replay) : State :=
  match op with
  | .none => s
  | .req r => s.send (coreOf cid) (s.homeFor cid r.addr) (.req { r with cid := cid, tid := (s.ctx cid).th.tid, tries := 0 })
  | .vec v => s.onCore (coreOf cid) (fun c => { c with vq := c.vq ++ [{ v with cid := cid }] })
  | .copy v => s.onCore (coreOf cid) (fun c => { c with copies := c.copies ++ [{ v with cid := cid, status := 0 }] })
  | .mat v =>
    { s with stamp := s.stamp + 1 }.onCore (coreOf cid) (fun c =>
      { c with mat := c.mat ++ [{ v with cid := cid, status := 0, ord := s.stamp, age := c.cyc }] })

/-- Disposes of an unsettled entry of a context: action 0 replay, 1 discard, 2 supply (R172, R223). -/
def State.settleEntry (s : State) (cid e act : Nat) (v : Word) : State :=
  match (s.ctx cid).th.score.find e with
  | none => s
  | some x =>
    if x.settled then s
    else
      let f := x.f
      let s := s.onCtx cid (fun c => { c with th := { c.th with score := c.th.score.set e { x with settled := true } } })
      let posted : Option Req := match f.op with | .req r => some r | _ => none
      if f.kind ≤ 2 then
        match posted with
        | none => s
        | some r =>
          if act = 0 then
            ((s.onCtx cid (fun c => c.unpost r)).post { r with cid := cid, tid := (s.ctx cid).th.tid, tries := 0 }).replay cid (.req r)
          else s.onCtx cid (fun c => c.unpost r)
      else if f.kind ≤ 4 then
        if act = 0 then s.replay cid f.op
        else
          let s := s.onCtx cid (fun c => c.unlate f.seq)
          match f.reg with
          | none => s
          | some r => s.onCtx cid (fun c => if act = 2 then c.landLate f.seq r v else c.dropLate f.seq r)
      else if act = 0 then s.replay cid f.op
      else s

/-- SETTLE (R172). -/
def execSettle (a : Reg) (e : BitVec 4) (c : BitVec 2) (s : State) : Out State :=
  let i : Instr := .settle a e c
  if !s.th.inTrap then s.refusePriv i
  else
    s.withOps (if c = 2 then a else .zr) .zr .zr (fun s' x _ =>
      s.done i ((s'.settleEntry (s.scoreOwner s.cur) e.toNat c.toNat x).releasesDue s.here))

/-! ### Scrubbing (R173, R253, R257) -/

/-- SCRUB (R173). -/
def execScrub (a : Reg) (n : BitVec 16) (s : State) : Out State :=
  let i : Instr := .scrub a n
  if ctxOf s.cur != 0 then s.refusePriv i
  else
    s.withOps a .zr .zr (fun s' x _ =>
      if bits x 0 6 != 0 then s.raise .misaligned x
      else if !isPad x || bits x 31 32 != 0 || bits x 19 12 != s.here || 2 ^ 19 < bits x 0 19 + 64 * n.toNat then
        s.raise .badAddress x
      else s.done i (s'.onCore s.here (fun c => { c with scrubs := c.scrubs ++ [(bits x 0 19 / 64, n.toNat)] })))

/-- One 64-byte block is checked, and with it the parity row of each of its two groups (R173, R257). -/
def State.scrubBlock (s : State) (core block : Nat) : State :=
  s.onCore core (fun c =>
    let c := (List.range 8).foldl (fun c k => scrubWord c (block * 8 + k)) c
    [0, 4].foldl (fun c k => scrubRow c (groupNo (block * 8 + k)) (rowOf (block * 8 + k))) c)

/-- SCRUB_PASS (R257): the next block, in turn. -/
def execScrubPass (core : Nat) (s : State) : Out State :=
  if (s.core core).powered then
    let b := (s.core core).scrubPos
    .next ((s.scrubBlock core b).onCore core (fun c => { c with scrubPos := (b + 1) % 8192 }))
  else .next s

/-- SCRUB_REQUEST_BLOCK (R173). -/
def execScrubRequestBlock (core : Nat) (s : State) : Out State :=
  match (s.core core).scrubs with
  | [] => .next s
  | (b, n) :: rest =>
    let s := s.onCore core (fun c => { c with scrubs := if n ≤ 1 then rest else (b + 1, n - 1) :: rest })
    .next (if (s.core core).powered then s.scrubBlock core b else s)

/-- PARITY_UPDATE (R253). -/
def execParityUpdate (core : Nat) (g : BitVec 2) (s : State) : Out State :=
  .next (s.onCore core (fun c =>
    if (groupOf c g.toNat).queue.isEmpty then c
    else { c with groups := c.groups.set g.toNat (applyParity (groupOf c g.toNat)) }))

end Sys2Proof.Machine
end

