-- ==== Sys2Proof/Machine/Task.lean ====
section
/-! DEFINITION. Task and context instructions (major 0x2B; R148 to R156) and what they share with the dies'
schedulers: queues, spawn limits, suspension and its places (R43, R49, R53, R226, R227). -/

namespace Sys2Proof.Machine

open Sys2Proof

/-! ### Ready queues (R43, R49, R51) -/

/-- The number of a die's scheduler as a source or destination of messages. -/
def schedOf (die : Nat) : Nat := 0x1000 + die

/-- Places of a die's ready queue that pushes and steal answers on their way will take (R51). -/
def State.heldPlaces (s : State) (die : Nat) : Nat :=
  s.net.foldl (fun n m => n + (match m.body with
    | .spawn _ => if m.dst == schedOf die then 1 else 0
    | .steal thief k => if thief == die then k else 0
    | .stolen thief ts => if thief == die then ts.length else 0
    | _ => 0)) 0

/-- Free places of a die's ready queue. -/
def State.queueRoom (s : State) (die : Nat) : Nat :=
  Config.readyMax - ((s.die die).queue.length + s.heldPlaces die)

/-- A launch's tasks queued on a die, those in transit by a steal from it included (R49). -/
def State.queuedOn (s : State) (die launch : Nat) : Nat :=
  ((s.die die).queue.filter (fun t => t.launch == launch)).length
    + s.net.foldl (fun n m => n + (match m.body with
      | .stolen _ ts => if m.src == schedOf die then (ts.filter (fun t => t.launch == launch)).length else 0
      | _ => 0)) 0

/-- The spawn limit does not hold a spawner of a launch off a die (R49). -/
def State.spawnOpen (s : State) (die launch : Nat) : Bool :=
  decide (0 < s.queueRoom die)
    && (match s.launch launch with
      | some l => l.splim == 0 || decide (s.queuedOn die launch < l.splim)
      | none => true)

/-- A context is parked at a SPAWN for a die. -/
def State.atSpawn (s : State) (cid die : Nat) : Bool := (s.ctx cid).run == .parked (.spawn die)

/-- A spawner's condition: the limit is clear, and no spawner that parked at the die before it is still to wake for the same
reason (R49). Log 76: the order binds parked spawners only. -/
def State.spawnReady (s : State) (cid die : Nat) : Bool :=
  let line := (s.die die).spawners.map (fun k => k.2)
  s.spawnOpen die (s.ctx cid).th.launch
    && !(line.contains cid
      && (line.takeWhile (fun k => k != cid)).any (fun k => s.atSpawn k die && s.spawnOpen die (s.ctx k).th.launch))

/-- Takes the next number in the order of enqueueing and of parking. -/
def State.tick (s : State) : State := { s with stamp := s.stamp + 1 }

/-- A spawner parks for a die (R49): it stands last in the order of parking. -/
def State.spawnParks (s : State) (cid die : Nat) : State :=
  ((s.leaveOrders cid).onDie die (fun d => { d with spawners := d.spawners ++ [(s.stamp, cid)] })).tick

/-- A die's scheduler receives a pushed task (R60). -/
def State.enqueue (s : State) (die : Nat) (t : Task) : State :=
  (s.onDie die (fun d => { d with queue := d.queue ++ [{ t with born := s.stamp }] })).tick

/-- Pushes a spawned task: into the queue of the own die, as a message to another (R149, R60). -/
def State.pushTask (s : State) (die : Nat) (t : Task) : State :=
  let s := (s.countSent s.here t.launch).onLaunch t.launch (fun l => { l with tasks := l.tasks + 1 })
  if die == dieOf s.here then
    (s.enqueue die t).onDie die (fun d => { d with recv := d.recv.set t.launch (d.recv.get t.launch 0 + 1) })
  else s.send s.here (schedOf die) (.spawn t)

/-! ### SPAWN (R148, R149) -/

/-- The dies that a thread's launch selects. -/
def State.diesNow (s : State) : BitVec 8 := ((s.launch s.th.launch).map (fun l => l.dies)).getD 0

/-- The target die of a SPAWN (R48), or the operand that it refuses. -/
def State.spawnDie (s : State) (f : BitVec 3) (y : Word) : Except Word Nat :=
  let own := dieOf s.here
  match f.toNat with
  | 2 => if bits y 3 61 != 0 || !s.diesNow.getLsbD (bits y 0 3) then .error y else .ok (bits y 0 3)
  | 3 =>
    match s.homeOf s.cur y with
    | none => .error y
    | some h => .ok (if s.diesNow.getLsbD (dieOf h) then dieOf h else own)
  | _ => .ok own

/-- SPAWN (R149). -/
def execSpawn (a b : Reg) (f : BitVec 3) (s : State) : Out State :=
  let i : Instr := .spawn a b f
  if ctxOf s.cur == 0 then s.refusePriv i
  else
    s.withOps a (if f.toNat < 2 then .zr else b) .zr (fun s' x y =>
      if bits x 0 6 != 0 then s.raise .misaligned x
      else if s.badAddr s.cur x then s.raise .badAddress x
      else
        s'.pkRelease (fun s' =>
          match s'.readBlock x 64 with
          | .error c => s.raiseAt c x
          | .ok (s', k) =>
            let w (n : Nat) : Word := s'.mem.word (k + 8 * n)
            if bits (w 0) 0 2 != 0 || bits (w 0) 48 16 != 0 then s.raise .badAddress (w 0)
            else
              match s'.spawnDie f y with
              | .error v => s.raise .badAddress v
              | .ok die =>
                if s'.spawnReady s.cur die then
                  let t : Task := ⟨s.th.launch, toAddr (w 0), (List.range 6).map (fun n => w (n + 1)), w 7,
                    s.th.prio, none, none, none, f == 1, 0, 0, 0⟩
                  s.done i (s'.pushTask die t)
                else s'.waitFor (.spawn die)))

/-! ### WFW, HALT, YIELD (R150 to R152) -/

/-- What ends the sleep of context 0 (R150): a store to a watched word, a message in its ib lane, or a trap delegated to it,
which R220 says when it is presented with. Log 98: one that is there when the sleep begins ends it too. -/
def State.sleepOver (s : State) (cid : Nat) : Bool :=
  (s.ctx cid).ready || decide (0 < s.ibCount cid) || !(s.core (coreOf cid)).delegq.isEmpty

/-- WFW and HALT of context 0 (R150). -/
def State.sleep (s : State) (i : Instr) : Out State :=
  if s.sleepOver s.cur then s.done i (s.withMe (fun c => { c with ready := false })) else s.waitFor .sleep

/-- Wakes context 0 from its sleep: it goes on at PC + 4 (R150). -/
def State.wakeSleep (s : State) (cid : Nat) : State :=
  let c := s.ctx cid
  s.setCtx cid (({ c.applyWaves with run := .runnable, ready := false }).advance .wfw (nextPc c.th.pc))

/-- What WFW waits for (R150): stores acknowledged, no late load, every entry settled. -/
def State.wfwWait (s : State) : Option Wait :=
  if s.me.unack != 0 || s.me.outld != 0 then some (.counts 0 0 15 15)
  else if !s.th.settled then some .drained
  else none

/-- WFW (R150, R47): idle for its launch; the thread's watches go (R191). -/
def execWfw (s : State) : Out State :=
  if ctxOf s.cur == 0 then s.sleep .wfw
  else if s.th.comp then s.refusePriv .wfw
  else
    match s.wfwWait with
    | some w => (s.flushAll s.cur).waitFor w
    | none => s.detaching (fun s' => s.done .wfw ((s'.dropWatches s.cur).withMe (fun c => { c with run := .idle })))

/-- HALT (R151). -/
def execHalt (s : State) : Out State :=
  if ctxOf s.cur == 0 then s.sleep .halt
  else if s.th.comp then s.refusePriv .halt
  else
    s.draining (fun s' => s'.detaching (fun s' =>
      if s.sigFails .halt false then s.raise .signature (s.sigDetail .halt false)
      else
        let s' := s'.note s.cur 0x5 s.seqNow s.th.pc (BitVec.allOnes 64) 0
        .next (((s'.orphanAll s.cur).dropWatches s.cur).free s.cur)))

/-- YIELD (R152). -/
def execYield (s : State) : Out State := s.done .yield (s.withMe (fun c => { c with yielded := true }))

/-! ### CTXS and CTXR (R153, R154) -/

/-- An unended launch of the partition of a die. -/
def State.launchIn (s : State) (die num : Nat) : Option Launch :=
  match s.launch num with
  | some l => if l.part == s.partOf die then some l else none
  | none => none

/-- The thread that CTXS starts (R153, R314). -/
def startThread (l : Launch) (pc : Addr48) (mask : BitVec 16) (args : List Word) : Thread :=
  { Thread.zero with
    pc := pc
    gpr := argRegs args []
    launch := l.num
    prio := l.prio
    migmask := mask
    feretry := l.feretry
    ebudget := BitVec.ofNat 32 l.ebudget
    mat := MatCfg.fresh l.prio }

/-- CTXS (R153). Log 74: bits [31:16] of the word at 0x08 are ignored. Log 75: a vacant context that is reserved under R45 is
not one that CTXS may start. -/
def execCtxs (a b : Reg) (s : State) : Out State :=
  let i : Instr := .ctxs a b
  if ctxOf s.cur != 0 then s.refusePriv i
  else
    s.withOps a b .zr (fun s' x y =>
      let cid := s.here * 16 + bits x 0 4
      if bits y 0 6 != 0 then s.raise .misaligned y
      else if bits x 0 4 = 0 || bits x 4 60 != 0 then s.raise .badAddress x
      else if (s.ctx cid).run != .vacant || (s.ctx cid).reserved.isSome then s.raise .badAddress x
      else if s.badAddr s.cur y then s.raise .badAddress y
      else
        s'.atHome y (fun s' =>
          match s'.readBlock y 64 with
          | .error c => s.raiseAt c y
          | .ok (s', k) =>
            let w (n : Nat) : Word := s'.mem.word (k + 8 * n)
            if bits (w 0) 0 2 != 0 || bits (w 0) 48 16 != 0 then s.raise .badAddress (w 0)
            else
              match s'.launchIn (dieOf s.here) (keyOf (s.partOf (dieOf s.here)) (bits (w 1) 32 32)) with
              | none => s.raise .badAddress (w 1)
              | some l =>
                let t := startThread l (toAddr (w 0)) (BitVec.ofNat 16 (bits (w 1) 0 16)) ((List.range 6).map (fun n => w (n + 2)))
                let (s', t) := s'.nameThread t
                s.done i (s'.occupy cid t [])))

/-- Status with which a killed or reaped routine fails (R351). -/
def killStatus : Word := 0xC000000000000000

/-- The thread of a context is reaped; a compensating routine fails by it (R154, R349). -/
def State.reapCtx (s : State) (cid : Nat) : State :=
  match (s.ctx cid).run, (s.ctx cid).th.routine with
  | .vacant, _ => s
  | .killed, _ => (s.vacate cid).offer (coreOf cid)
  | _, some _ => s.failRoutine cid killStatus
  | _, none => (s.reap cid).offer (coreOf cid)

/-- CTXR (R154). -/
def execCtxr (a : Reg) (s : State) : Out State :=
  let i : Instr := .ctxr a
  if ctxOf s.cur != 0 then s.refusePriv i
  else
    s.withOps a .zr .zr (fun s' x _ =>
      if bits x 0 4 = 0 || bits x 4 60 != 0 then s.raise .badAddress x
      else s.done i (s'.reapCtx (s.here * 16 + bits x 0 4)))

/-! ### Suspension (R226, R227) and PRMT (R155) -/

/-- A thread to be suspended can be held: in its core's cache, or in the spill area when its engine state has a place
there (R227). -/
def State.mayHold (s : State) (cid : Nat) : Bool :=
  let t := (s.ctx cid).th
  decide ((s.core (coreOf cid)).cacheUsed < Config.cacheMax)
    || (decide ((s.die (dieOf (coreOf cid))).spill.length < Config.spillMax) && (t.slot.isSome || !t.engineLive))

/-- Holds a thread in a core's cache, or in the spill area when the cache is full: its live engine state then goes to its save
area (R227). -/
def State.hold (s : State) (core : Nat) (p : Parked) : State :=
  if (s.core core).cacheUsed < Config.cacheMax then s.onCore core (fun c => { c with cache := c.cache ++ [p] })
  else
    let (s, t) := s.saveEngine p.th
    s.onDie (dieOf core) (fun d => d.spillIn core { p with th := t })

/-- SUSPENDS a thread (R226): its state is saved, its commands go on under an id of their own, its watches are removed
and its context becomes vacant. -/
def State.suspend (s : State) (cid : Nat) (why : Held3) : State :=
  let core := coreOf cid
  let s := s.retireAll cid
  let c := s.ctx cid
  let id := (s.stamp + 1) * 65536 + cid
  let p : Parked :=
    ⟨{ s.threadOf cid with sig := { c.th.sig with isOpen := false } }, why, id, c.seq, c.asyncs, c.faults, c.replies⟩
  let s := s.note cid 0x5 c.seqNow c.th.pc (BitVec.allOnes 64) 5
  (((s.dropWatches cid).relabel core cid id).hold core p).tick.free cid

/-- The thread that PRMT suspended first on a core. -/
def State.oldestSuspended (s : State) (core : Nat) : Option Parked :=
  firstHeld ((s.heldBy core).filter (fun p => p.why == .suspended))

/-- PRMT (R155). Log 75: a resume does not take a vacant context that is reserved under R45, and is refused as for one that is
not vacant. -/
def execPrmt (a : Reg) (s : State) : Out State :=
  let i : Instr := .prmt a
  if ctxOf s.cur != 0 then s.refusePriv i
  else
    s.withOps a .zr .zr (fun s' x _ =>
      let cid := s.here * 16 + bits x 0 4
      if bits x 0 4 = 0 || 2 ≤ bits x 4 2 || bits x 6 58 != 0 then s.raise .badAddress x
      else if bits x 4 2 = 0 then
        s.done i (s'.onCtx cid (fun c => if c.holdsThread then { c with preempt := true } else c))
      else if (s.ctx cid).run != .vacant || (s.ctx cid).reserved.isSome then s.raise .badAddress x
      else
        match s.oldestSuspended s.here with
        | none => s.done i s'
        | some p => s.done i ((s'.unhold s.here p).letIn cid p))

/-- A thread's OUTLD and UNACK are zero, with no value of theirs on its way to the foot (R226). -/
def State.countsZero (s : State) (cid : Nat) : Bool := (s.ctx cid).unack == 0 && (s.ctx cid).outld == 0 && !s.lateComing cid

/-- A pre-empted thread suspends (R226): its counts are zero, no late fault is to be taken first (R215), and it can be held
(R227). -/
def State.maySuspend (s : State) (cid : Nat) : Bool := s.countsZero cid && !(s.ctx cid).lateDue && s.mayHold cid

/-- PREEMPT_SUSPEND (R226): a context whose pre-emption was taken suspends once its OUTLD and UNACK are zero. -/
def execPreemptSuspend (cid : Nat) (s : State) : Out State :=
  if ((s.ctx cid).run == .waiting .suspend || (s.ctx cid).run == .parked .suspend) && s.maySuspend cid then
    .next (s.suspend cid .suspended)
  else .next s

/-! ### LNCH (R156) -/

/-- Blocks that a partition's scheduler holds: submitted, or of launches that have not ended. -/
def State.blocksHeld (s : State) (part : Nat) : Nat :=
  (s.part part).submitted.length + (s.launches.filter (fun l => l.part == part && !l.ended)).length

/-- LNCH (R156). -/
def execLnch (a : Reg) (s : State) : Out State :=
  let i : Instr := .lnch a
  s.withOps a .zr .zr (fun s' x _ =>
    if bits x 0 8 != 0 then s.raise .misaligned x
    else if s.badAddr s.cur x then s.raise .badAddress x
    else
      s'.releasing .sy (fun s' =>
        match s'.readBlock x 256 with
        | .error c => s.raiseAt c x
        | .ok (s', k) =>
          let part := s.partOf (dieOf s.here)
          if Config.submitMax ≤ s'.blocksHeld part then s'.waitFor .submit
          else
            let b : Block := ⟨x, ⟨part, s.asnOf s.cur, s.rangesOf s.cur⟩, s'.mem.bytes k 256⟩
            let p := s'.part part
            s.done i (s'.setPart part { p with submitted := p.submitted ++ [b] })))

end Sys2Proof.Machine
end

