-- ==== Sys2Proof/Machine/Launch.lean ====
section
/-! DEFINITION. The package scheduler: acceptance of launch blocks (R36 to R41, R232, R356, R357), the completion
record and the end of a launch (R59, R60), and writes of agents that are no thread (R192, R233, R238). -/

namespace Sys2Proof.Machine

open Sys2Proof

/-! ### Reads and writes of agents -/

/-- The memory key of an address that an agent uses: one that home_of gives a home in its partition (R31, R128, R232), and that
its home translates. -/
def State.agentKey (s : State) (v : View) (x : Word) (write : Bool) : Option Nat :=
  match homeWith s ((diesOfPart v.part).headD 0) v.ranges x, s.translate (vkey v.space x) write with
  | some _, .ok k => if padKey k && !(s.core (padCore k)).powered then none else some k
  | _, _ => none

/-- An agent's store of a word; nothing when its address has no place to go. -/
def State.agentWrite (s : State) (v : View) (x w : Word) : State :=
  match s.agentKey v x true with
  | some k => (s.agentStore agentCid (vkey v.space x) k (leBytes 8 w.toNat)).getD s
  | none => s

/-- A word that an agent reads. -/
def State.agentRead (s : State) (v : View) (x : Word) : Option Word :=
  match s.agentKey v x false with
  | some k => (s.load k 8).map (fun p => BitVec.ofNat 64 p.1)
  | none => none

/-- Words 0 to n − 1 from an address. -/
def State.agentWords (s : State) (v : View) (x : Word) : Nat → Option (List Word)
  | 0 => some []
  | n + 1 => match s.agentRead v x with
    | none => none
    | some w => (State.agentWords s v (x + 8) n).map (fun l => w :: l)

/-! ### The launch block (R36, R37, R39) -/

/-- A byte and a word of a block. -/
def Block.byte (b : Block) (o : Nat) : Nat := (b.bytes.getD o 0).toNat
def Block.word (b : Block) (o : Nat) : Word := BitVec.ofNat 64 (leNat ((b.bytes.drop o).take 8))

/-- The partition of the LNCH that handed the block over. -/
def Block.part (b : Block) : Nat := b.view.part

def Block.dies (b : Block) : BitVec 8 := BitVec.ofNat 8 (bits (b.word 8) 40 8)
def Block.partNo (b : Block) : Nat := bits (b.word 8) 32 8
def Block.flags (b : Block) : Nat := bits (b.word 8) 24 8
def Block.prio (b : Block) : Nat := bits (b.word 8) 16 8
def Block.asnOf (b : Block) : Nat := bits (b.word 8) 0 16
def Block.num (b : Block) : Nat := bits (b.word 0x98) 32 32
def Block.succ (b : Block) : Nat := bits (b.word 0x98) 0 32
def Block.widths (b : Block) : List Nat := (List.range 6).map (fun k => b.byte (0x10 + k))
def Block.extents (b : Block) : List Nat := (List.range 6).map (fun k => (b.word (0x18 + 8 * k)).toNat)
def Block.levels (b : Block) : List Nat := (List.range 6).map (fun k => b.byte (0x48 + k))

/-- The identifier fields that are present, least significant first: width, extent, level. -/
def Block.fields (b : Block) : List (Nat × Nat × Nat) :=
  (List.range 6).map (fun k => (b.widths.getD k 0, b.extents.getD k 0, b.levels.getD k 0))

/-- Levels of the fields of nonzero width never grow finer with significance (R39). -/
def levelsFall : List Nat → Bool
  | a :: b :: rest => decide (b ≤ a) && levelsFall (b :: rest)
  | _ => true

/-- R39. -/
def Block.fieldsOk (b : Block) : Bool :=
  let f := b.fields
  decide ((f.map (fun x => x.1)).foldl (· + ·) 0 ≤ 64)
    && f.all (fun x => if x.1 = 0 then x.2.1 == 0 && x.2.2 == 0
      else decide (x.2.2 ≤ 5) && decide (1 ≤ x.2.1) && decide (x.2.1 < 2 ^ x.1))
    && levelsFall ((f.filter (fun x => x.1 != 0)).map (fun x => x.2.2))
    && ((f.drop 1).all (fun x => x.1 == 0 || x.2.2 != 5))

/-! ### Placement tables (R232) -/

/-- The default table (R36). -/
def defaultRange (dies : BitVec 8) (toa : Bool) : Range := ⟨0, 2 ^ 48, 65536, dies, false, toa⟩

/-- Dies of a mask all lie in a list. -/
def maskIn (m : BitVec 8) (ds : List Nat) : Bool := (List.range 8).all (fun d => !m.getLsbD d || ds.contains d)

/-- One entry of a placement table, or none when a field breaks R232. -/
def rangeOf (a b : Word) (toa : Bool) (ds : List Nat) : Option Range :=
  let g := bits a 10 2
  let gran := if g = 0 then 4096 else if g = 1 then 65536 else 2097152
  let dies : BitVec 8 := BitVec.ofNat 8 (bits a 0 8)
  let base := bits a 12 36 * 4096
  let size := bits b 12 52 * 4096
  if bits a 48 16 != 0 || bits a 8 2 != 0 || bits b 3 9 != 0 || g = 3 || dies = 0 || !maskIn dies ds
      || base % gran != 0 || size % gran != 0 || 2 ^ 48 < base + size then none
  else some ⟨base, size, gran, dies, bit b 2, if bit b 0 then bit b 1 else toa⟩

/-- Reads a placement table of at most n entries. -/
def State.readRanges (s : State) (v : View) (x : Word) (toa : Bool) (ds : List Nat) : Nat → Option (List Range)
  | 0 => some []
  | n + 1 =>
    match s.agentRead v x, s.agentRead v (x + 8) with
    | some a, some b =>
      if bits b 12 52 = 0 then some []
      else
        match rangeOf a b toa ds with
        | none => none
        | some r => (State.readRanges s v (x + 16) toa ds n).map (fun l => r :: l)
    | _, _ => none

/-- No two ranges overlap. -/
def rangesApart : List Range → Bool
  | [] => true
  | r :: rest => rest.all (fun q => decide (r.base + r.size ≤ q.base) || decide (q.base + q.size ≤ r.base)) && rangesApart rest

/-- The placement table of a block, or none when it breaks R232. -/
def State.tableOf (s : State) (b : Block) (ds : List Nat) : Option (List Range) :=
  let p := b.word 0x80
  let toa := b.flags / 16 % 2 = 1
  if p = 0 then some [defaultRange b.dies toa]
  else if bits p 0 4 != 0 then none
  else
    match s.readRanges b.view p toa ds 64 with
    | none => none
    | some l => if rangesApart l then some l else none

/-! ### Time tables (R356, R357) -/

/-- One entry of a time table: the core and its input links, or none when a field breaks R357. -/
def timeEntry (w : List Word) : Option (Nat × List InLink) :=
  let h := w.getD 0 0
  let n := bits h 16 4
  if bits h 20 44 != 0 || bits h 12 4 != 0 || 8 < n || (w.drop 9).any (fun x => x != 0) then none
  else
    let links := (w.drop 1).take 8
    if links.any (fun x => bits x 44 20 != 0) || (links.drop n).any (fun x => x != 0) then none
    else some (bits h 0 12, (links.take n).map (fun x => ⟨bits x 32 12, bits x 0 32, 0⟩))

/-- Reads n entries of a time table. -/
def State.readTimes (s : State) (v : View) (x : Word) : Nat → Option (List (Nat × List InLink))
  | 0 => some []
  | n + 1 =>
    match s.agentWords v x 16 with
    | none => none
    | some w =>
      match timeEntry w with
      | none => none
      | some e => (State.readTimes s v (x + 128) n).map (fun l => e :: l)

/-- The table meets R357 for the dies of a launch. -/
def timesOk (t : List (Nat × List InLink)) (dies : BitVec 8) (ds : List Nat) : Bool :=
  let cores := t.map (fun e => e.1)
  cores.all (fun c => isCore c && dies.getLsbD (dieOf c) && ds.contains (dieOf c))
    && decide (cores.eraseDups.length = cores.length)
    && t.all (fun e => e.2.all (fun i => i.src != e.1 && cores.contains i.src)
      && decide ((e.2.map (fun i => i.src)).eraseDups.length = e.2.length))

/-- The time table of a block, or none when it cannot be read or breaks R357. -/
def State.timesOf (s : State) (b : Block) (ds : List Nat) : Option (List (Nat × List InLink)) :=
  let p := b.word 0x88
  if bits p 0 6 != 0 then none
  else
    match s.agentWords b.view p 8 with
    | none => none
    | some h =>
      let n := bits (h.getD 0 0) 0 12
      if bits (h.getD 0 0) 12 52 != 0 || n = 0 || 3072 < n || (h.drop 1).any (fun x => x != 0) then none
      else
        match s.readTimes b.view (p + 64) n with
        | none => none
        | some t =>
          if timesOk t b.dies ds && t.all (fun e => match (s.core e.1).lt with
              | none => true
              | some _ => false) then some t
          else none

/-! ### Checks (R38) -/

/-- The status with which a block is refused, in the order of the table of R38; 0 when it is accepted. -/
def State.blockStatus (s : State) (b : Block) : Nat :=
  let ds := diesOfPart b.part
  let entry := b.word 0
  if bits entry 0 2 != 0 || bits entry 48 16 != 0 || !(b.asnOf == 0 || s.pages.any (fun p => p.space == spaceOf b.part b.asnOf)) then 0x10
  else if !b.fieldsOk || (s.tableOf b ds).isNone then 0x11
  else if b.partNo != b.part || b.dies = 0 || !maskIn b.dies ds
      || (List.range 8).any (fun d => b.dies.getLsbD d && !(s.ready.getLsbD (16 + d))) then 0x12
  else if bits (b.word 8) 48 16 != 0 || b.byte 0x4E != 0 || b.byte 0x4F != 0 || bits (b.word 0xB8) 48 16 != 0
      || 32 ≤ b.flags || (b.bytes.drop 0xC0).any (fun x => x != 0) || 3 < b.prio || 255 < bits (b.word 0xB8) 32 16
      || (b.flags % 2 = 0 && b.word 0x88 != 0) then 0x13
  else if (b.flags % 2 = 1 && (b.word 0x88 == 0 || (s.timesOf b ds).isNone)) || (b.flags / 2 % 2 = 1 && b.succ = 0) then 0x14
  else if bits (b.word 0xA0) 39 25 != 0
      || (bit (b.word 0xA0) 38 && !ds.any (fun d => isIndigo d && !s.offDies.contains d)) then 0x15
  else if bits (b.word 0xA8) 0 16 != 0 || (b.word 0xB0).toNat % 2 ^ 32 != 0 then 0x16
  else if b.num = 0 || s.launches.any (fun l => l.num == keyOf b.part b.num && !l.ended) then 0x17
  else 0

/-- GTIME of a partition, as the first cluster of its first die holds it (R388). -/
def State.partTime (s : State) (part : Nat) : Word := s.copyNs ((diesOfPart part).headD 0 * 48)

/-- Writes a completion record, word 0xC0 last (R60). -/
def State.writeCrec (s : State) (v : View) (x : Word) (num status : Nat) (ws : List Word) : State :=
  let s := (List.range 7).foldl (fun s k => s.agentWrite v (x + BitVec.ofNat 64 (0xC8 + 8 * k)) (ws.getD k 0)) s
  s.agentWrite v (x + 0xC0) (BitVec.ofNat 64 (num % 2 ^ 32 * 2 ^ 32 + status))

/-- The launch that an accepted block starts. -/
def State.launchOf (s : State) (b : Block) : Launch where
  num := keyOf b.part b.num
  part := b.part
  asn := spaceOf b.part b.asnOf
  flags := BitVec.ofNat 5 b.flags
  prio := b.prio
  dies := b.dies
  entry := toAddr (b.word 0)
  args := (List.range 6).map (fun k => b.word (0x50 + 8 * k))
  widths := b.widths
  extents := b.extents
  levels := b.levels
  ranges := (s.tableOf b (diesOfPart b.part)).getD []
  ebudget := bits (b.word 0x90) 0 32
  erefill := bits (b.word 0x90) 32 32
  succ := if b.succ = 0 then 0 else keyOf b.part b.succ
  feretry := BitVec.ofNat 16 (bits (b.word 0xA0) 16 16)
  tmask := BitVec.ofNat 16 (bits (b.word 0xA0) 0 16)
  stkbase := b.word 0xA8
  stksize := (b.word 0xB0).toNat
  domain := bits (b.word 0xB8) 32 16
  splim := bits (b.word 0xB8) 0 32
  block := b.addr
  blockView := b.view
  gen := 0
  ended := false
  tasks := 0
  kills := 0
  killed := false
  tstart := s.partTime b.part
  energy := 0
  sent := 0
  recv := 0
  lastSent := 0
  lastRecv := 0
  final := none

/-- The output links of a core: those of which it is the source (R358). -/
def outLinks (t : List (Nat × List InLink)) (core : Nat) : List OutLink :=
  t.flatMap (fun e => (e.2.filter (fun i => i.src == core)).map (fun i => ⟨e.1, i.l, 0, false, false, none⟩))

/-- The local-time state of a listed core at acceptance (R359). -/
def ltStart (launch : Nat) (t : List (Nat × List InLink)) (e : Nat × List InLink) : LTime :=
  ⟨launch, 0, e.2, outLinks t e.1, [], [], 0, 0, 0, 0, false, false, 0⟩

/-- A launch takes up the scratchpads retained for it: their banks come up when they are down (R58, R59). Log 94: once, when its block is
accepted. -/
def State.takeUp (s : State) (num : Nat) : State :=
  { s with cores := s.cores.mapVal (fun c => if c.retained == some num && !c.powered then { c with powering := true } else c) }

/-- LAUNCH_ACCEPT (R38): the oldest submitted block of a partition is refused with its status or accepted. -/
def execLaunchAccept (part : Nat) (s : State) : Out State :=
  match (s.part part).submitted with
  | [] => .next s
  | b :: rest =>
    let p := s.part part
    let s := s.setPart part { p with submitted := rest }
    let st := s.blockStatus b
    if st != 0 then .next (s.writeCrec b.view b.addr b.num st [])
    else
      let t := if b.flags % 2 = 1 then (s.timesOf b (diesOfPart b.part)).getD [] else []
      let s := ({ s with launches := s.launches ++ [s.launchOf b] }).takeUp (keyOf b.part b.num)
      .next (t.foldl (fun s e => (s.onCore e.1 (fun c => { c with lt := some (ltStart (keyOf b.part b.num) t e) })).ltTouch e.1) s)

/-! ### Task generation (R40 to R42) -/

/-- The fields of a launch. -/
def Launch.fields (l : Launch) : List (Nat × Nat × Nat) :=
  (List.range 6).map (fun k => (l.widths.getD k 0, l.extents.getD k 0, l.levels.getD k 0))

/-- The number of tasks that the generator enumerates (R40). -/
def Launch.total (l : Launch) : Nat :=
  (l.fields.filter (fun f => f.1 != 0 && f.2.2 != 5)).foldl (fun n f => n * f.2.1) 1

/-- The field values of the n-th identifier, field 0 fastest; an iteration field is zero (R40). -/
def fieldValues : List (Nat × Nat × Nat) → Nat → List Nat
  | [], _ => []
  | (w, e, lv) :: rest, n => if w = 0 || lv = 5 then 0 :: fieldValues rest n else (n % e) :: fieldValues rest (n / e)

/-- The identifier of field values (R39). -/
def packFields : List (Nat × Nat × Nat) → List Nat → Nat
  | (w, _, _) :: rest, v :: vs => v + 2 ^ w * packFields rest vs
  | _, _ => 0

/-- The index of a level: its fields in mixed radix, the less significant faster (R41). -/
def levelIndex (lv : Nat) : List (Nat × Nat × Nat) → List Nat → Nat
  | (w, e, l) :: rest, v :: vs => if w != 0 && l == lv then v + e * levelIndex lv rest vs else levelIndex lv rest vs
  | _, _ => 0

/-- A launch has a field of a level. -/
def Launch.has (l : Launch) (lv : Nat) : Bool := l.fields.any (fun f => f.1 != 0 && f.2.2 == lv)

/-- The dies of a mask in increasing number. -/
def diesOf (m : BitVec 8) : List Nat := (List.range 8).filter (fun d => m.getLsbD d)

/-- The n-th task of a launch and the die it goes to (R40, R41). -/
def Launch.task (l : Launch) (n : Nat) : Nat × Task :=
  let v := fieldValues l.fields n
  let ix (lv : Nat) : Nat := levelIndex lv l.fields v
  let ds := diesOf l.dies
  let die := ds.getD ((if l.has 1 then ix 1 else n) % ds.length) 0
  let cl := if l.has 2 then some (ix 2 % 48) else none
  let co := if l.has 3 then some (match cl with
      | some c => c * 8 + ix 3 % 8
      | none => ix 3 % 384) else none
  let cx := if l.has 4 then some (1 + ix 4 % 15) else none
  (die, ⟨l.num, l.entry, l.args, BitVec.ofNat 64 (packFields l.fields v), l.prio, cl, co, cx, !l.has 1, 0, 0, 0⟩)

/-- TASK_GENERATE (R42): the next task enters its die's ready queue when it has room and the spawn limit allows. -/
def execTaskGenerate (launch : Nat) (s : State) : Out State :=
  match s.launch launch with
  | none => .next s
  | some l =>
    if l.total ≤ l.gen then .next s
    else
      let (die, t) := l.task l.gen
      if s.spawnOpen die l.num then
        .next ((s.onLaunch l.num (fun l => { l with gen := l.gen + 1, tasks := l.tasks + 1 })).enqueue die t)
      else .next s

/-! ### End of time (R367) -/

/-- A task is pinned to a core of a die (R41). -/
def Task.pinnedTo (t : Task) (die core : Nat) : Bool :=
  match t.core with
  | some pl => coreAt (die * 48 + pl / 8) (pl % 8) == core
  | none => false

/-- A task queued on a die, or on its way there, is queued for a core: its pins let the core take it. -/
def Task.queuedFor (t : Task) (die core : Nat) : Bool :=
  dieOf core == die && (match t.core with
    | some _ => t.pinnedTo die core
    | none => match t.cluster with
      | some c => clusterOf core % 48 == c
      | none => true)

/-- Nothing of the launch is left for a listed core: no thread occupied on, suspended at or held at it, no task
pinned to it or queued for it, be it still to be generated or on its way, and no routine is posted on its die (R345, R367). -/
def State.ltGone (s : State) (core : Nat) (t : LTime) : Bool :=
  let c := s.core core
  (launchCtxs core).all (fun cid => !((s.ctx cid).occupied && (s.ctx cid).th.launch == t.launch)
      && (match (s.ctx cid).reserved with | some th => th.launch != t.launch | none => true))
    && c.arrivals.all (fun p => p.th.launch != t.launch) && c.cache.all (fun p => p.th.launch != t.launch)
    && ((s.die (dieOf core)).spilledFor core).all (fun p => p.th.launch != t.launch)
    && (s.die (dieOf core)).queue.all (fun k => k.launch != t.launch || !k.queuedFor (dieOf core) core)
    && (s.die (dieOf core)).posts.all (fun p => p.2 != t.launch)
    && s.net.all (fun m => match m.body with
      | .stolen thief ts => ts.all (fun k => k.launch != t.launch || !k.queuedFor thief core)
      | .spawn k => k.launch != t.launch || !k.queuedFor (m.dst % 8) core
      | _ => true)
    && (match s.launch t.launch with
      | some l => !l.has 3 || (List.range (l.total - l.gen)).all (fun k =>
        !(l.task (l.gen + k)).2.pinnedTo (l.task (l.gen + k)).1 core)
      | none => true)

/-- END_OF_TIME (R367): VT and P become all ones, the lane's messages are discarded and counted. -/
def execEndOfTime (core : Nat) (s : State) : Out State :=
  match (s.core core).lt with
  | none => .next s
  | some t =>
    if s.ltGone core t && !t.timeEnded then
      .next (((s.onLt core (fun t => { t with vt := BitVec.allOnes 64, timeEnded := true, lane := [] })).ltTouch core))
    else .next s

/-! ### The end of a launch (R59, R60) -/

/-- Messages of a launch sent and received in its partition, receipts of spawn pushes included (R60). -/
def State.sumSent (s : State) (l : Launch) : Nat :=
  s.cores.foldl (fun n e => n + if (diesOfPart l.part).contains (dieOf e.1) then e.2.sent.get l.num 0 else 0) 0
def State.sumRecv (s : State) (l : Launch) : Nat :=
  s.cores.foldl (fun n e => n + if (diesOfPart l.part).contains (dieOf e.1) then e.2.recv.get l.num 0 else 0) 0
    + s.dies.foldl (fun n e => n + if (diesOfPart l.part).contains e.1 then e.2.recv.get l.num 0 else 0) 0

/-- A context whose thread belongs to a launch. -/
def Ctx.ofLaunch (c : Ctx) (num : Nat) : Bool := c.run != .vacant && c.th.launch == num

/-- Every condition of R60 but the counts. -/
def State.quiet (s : State) (l : Launch) : Bool :=
  s.ctxs.all (fun e => ctxOf e.1 == 0 || ((!e.2.ofLaunch l.num || e.2.run == .idle)
      && (match e.2.reserved with | some t => t.launch != l.num | none => true)))
    && s.heldThreads.all (fun p => p.th.launch != l.num)
    && s.dies.all (fun e => e.2.queue.all (fun t => t.launch != l.num) && e.2.posts.all (fun p => p.2 != l.num)
      && List.all e.2.acts (fun (a : Nat × Act) => a.2.launch != l.num
        || !(a.2.st == .opened || a.2.st == .committing || a.2.st == .abandoning)))
    && s.net.all (fun m => match m.body with
      | .stolen _ ts => ts.all (fun t => t.launch != l.num)
      | .spawn t => t.launch != l.num
      | _ => true)
    && decide (l.total ≤ l.gen)
    && s.ctxs.all (fun e => !(ctxOf e.1 != 0 && e.2.ofLaunch l.num)
      || (s.outv e.1 == 0 && s.outcp e.1 == 0 && s.outmx e.1 == 0))

/-- A descriptor of a launch that ends (R334). -/
def Act.ending (num : Nat) (a : Act) : Act :=
  if a.launch == num && (a.st == .abandoned || a.st == .failed) then { a with st := .free } else a

/-- What is left of the messages of a launch that has ended: its announcements are void, its timed messages have no lane to enter,
and its other messages are counted for no launch. -/
def Body.afterEnd (num : Nat) : Body → Option Body
  | .announce src n v => if n == num then none else some (.announce src n v)
  | .timed r n t => if n == num then none else some (.timed r n t)
  | .send r ctx n m => some (.send r ctx (if n == num then 0 else n) m)
  | b => some b

/-- Whether a core's scratchpad is retained after a launch has ended (R59). Log 77: where a core ran two launches with FLAGS.RET,
the one that ends later replaces the successor of the other. -/
def Launch.retains (l : Launch) (c : Core) : Option Nat :=
  if l.flags.getLsbD 1 && c.ranFor.contains l.num then some l.succ
  else if c.retained == some l.num then none else c.retained

/-- A message resent after its launch has ended, like one in flight. -/
def MsgResend.afterEnd (num : Nat) (m : MsgResend) : Option MsgResend :=
  if m.launch == num then (if m.timed.isSome then none else some { m with launch := 0 }) else some m

/-- A core after the end of a launch (R59, R60, R367). -/
def Core.afterEnd (l : Launch) (c : Core) : Core :=
  { c with
    retained := l.retains c
    ranFor := c.ranFor.filter (fun n => n != l.num)
    sent := c.sent.del l.num
    recv := c.recv.del l.num
    msgResends := c.msgResends.filterMap (MsgResend.afterEnd l.num)
    lt := match c.lt with
      | some t => if t.launch == l.num then none else some t
      | none => none }

/-- A die after the end of a launch. -/
def Die.afterEnd (l : Launch) (d : Die) : Die := { d with recv := d.recv.del l.num, acts := d.acts.mapVal (Act.ending l.num) }

/-- A message after the end of a launch. -/
def Msg.afterEnd (num : Nat) (m : Msg) : Option Msg := (m.body.afterEnd num).map (fun b => { m with body := b })

/-- ENDS a launch with a status (R59, R60); its completion record is written once its dies have charged the interval of its end (R403). -/
def State.endLaunch (s : State) (l : Launch) (status : Nat) : State :=
  let msgs := s.sumSent l
  let idle := (List.filter (fun (e : Nat × Ctx) => ctxOf e.1 != 0 && e.2.ofLaunch l.num && e.2.run == .idle) s.ctxs).map (fun e => e.1)
  let s := idle.foldl (fun s cid => s.free cid) s
  { s with
    cores := s.cores.mapVal (Core.afterEnd l)
    dies := s.dies.mapVal (Die.afterEnd l)
    net := s.net.filterMap (Msg.afterEnd l.num)
    launches := s.launches.map (fun (x : Launch) =>
      if x.num == l.num && !x.ended then { x with ended := true, final := some ⟨status, s.partTime l.part, msgs, diesOfPart l.part⟩ } else x) }

/-- The completion record of a launch that has ended, once every die has charged it (R60, R403). -/
def State.finalCrec (s : State) (l : Launch) : State :=
  match l.final with
  | some f =>
    if f.dies.isEmpty then
      s.writeCrec l.blockView l.block l.num f.status
        [l.tstart, f.tend, BitVec.ofNat 64 (l.energy / 1000000), BitVec.ofNat 64 l.tasks, BitVec.ofNat 64 f.msgs, BitVec.ofNat 64 l.kills, 0]
    else s
  | none => s

/-- A launch whose completion record has been written. -/
def Launch.filed (l : Launch) : Launch :=
  match l.final with
  | some f => if f.dies.isEmpty then { l with final := none } else l
  | none => l

/-- LAUNCH_SWEEP (R60). -/
def execLaunchSweep (part : Nat) (s : State) : Out State :=
  .next ((s.launches.filter (fun l => l.part == part && !l.ended)).foldl (fun s l =>
    let a := s.sumSent l
    let b := s.sumRecv l
    if s.quiet l && a == b && a == l.lastSent && b == l.lastRecv then s.endLaunch l (if l.killed then 2 else 1)
    else s.onLaunch l.num (fun x => { x with lastSent := a, lastRecv := b })) s)

/-- RETENTION_RELEASE (R59). -/
def execRetentionRelease (core : Nat) (s : State) : Out State := .next (s.onCore core (fun c => { c with retained := none }))

/-! ### Gang stops (R229, R378) -/

/-- The counts that a core records at a gang stop (R400): its cycle counter, then eight entries of four words. -/
def State.gangRecord (s : State) (core : Nat) : List Word :=
  let c := s.core core
  let ls := ((launchCtxs core).filterMap (fun cid =>
    if (s.ctx cid).occupied then some (s.ctx cid).th.launch else none)).eraseDups.take 8
  BitVec.ofNat 64 c.cyc :: (ls.flatMap (fun n =>
    [BitVec.ofNat 64 (n % 2 ^ 32), BitVec.ofNat 64 (c.sent.get n 0), BitVec.ofNat 64 (c.recv.get n 0)]))

/-- A core takes a gang stop (R229, R400). -/
def State.gangStopCore (s : State) (core : Nat) : State :=
  let r := s.gangRecord core
  (s.haltCore core).onCore core (fun c => { c with gangStopped := true, gangDue := false, dbg := { c.dbg with record := r } })

/-- GANG_STOP_ARRIVE (R229, R389, R400): in a frequency change the stop waits until issue resumes. -/
def execGangStopArrive (core : Nat) (s : State) : Out State :=
  if s.clockStops core then .next (s.onCore core (fun c => { c with gangDue := true })) else .next (s.gangStopCore core)

/-- The cores of a partition. -/
def coresOfPart (part : Nat) : List Nat := (diesOfPart part).flatMap coresOfDie

/-- GANG_STOP (R378): the stop is on its way to every core of the partition. -/
def execGangStop (part : Nat) (s : State) : Out State :=
  .next { s with agenda := (coresOfPart part).map (fun c => .event (.gangStopArrive c)) ++ s.agenda }

/-- GANG_RELEASE (R378). -/
def execGangRelease (part : Nat) (s : State) : Out State :=
  let ds := diesOfPart part
  .next { s with cores := List.map (fun (e : Nat × Core) =>
    if ds.contains (dieOf e.1) then (e.1, { e.2 with gangStopped := false, gangDue := false }) else e) s.cores }

/-- A thread that is removed with its launch: commands and reservations as for a kill, then the context is vacant. -/
def State.dropThread (s : State) (cid : Nat) : State :=
  ((((s.orphanAll cid).cancelCommands cid).dropWatches cid).detach cid).vacate cid

/-- The threads that are held or on their way, each with the core that holds it or sent it. -/
def State.heldAt (s : State) : List (Nat × Parked) :=
  s.cores.flatMap (fun e => (e.2.arrivals ++ e.2.cache).map (fun p => (e.1, p))) ++ s.dies.flatMap (fun d => d.2.spill.map (fun e => (e.core, e.parked)))
    ++ s.net.filterMap (fun m => match m.body with
      | .migrate p => some (m.src, p)
      | _ => none)

/-- A held thread goes with its launch: its commands, its reservations and its part in an activity. -/
def State.dropHeld (s : State) (x : Nat × Parked) : State :=
  ((s.cancelFor x.1 x.2.origin).orphanWords x.1 x.2.th.tid x.2.th.resv).leaveAct x.2.th.actcur

/-- The cache entry that a core reserves for a migration of a launch is free again (R53). -/
def State.freeEntry (num : Nat) (s : State) (m : Msg) : State :=
  match m.body with
  | .migrate p => if p.th.launch == num then s.onCore m.src (fun c => { c with inflight := c.inflight - 1 }) else s
  | _ => s

/-- A record that belongs to one of some activities. -/
def State.recIn (s : State) (hs : List Word) (die slot : Nat) : Bool :=
  match (s.die die).sepia.find slot with
  | some r => hs.contains r.handle
  | none => false

/-- A domain whose routine or frozen record belonged to activities that have failed goes on (R342). -/
def State.domOff (s : State) (hs : List Word) (x : Dom) : Dom :=
  { x with
    running := match x.running with
      | some (die, slot) => if s.recIn hs die slot then none else x.running
      | none => none
    frozen := match x.frozen with
      | some (die, slot, _) => if s.recIn hs die slot then none else x.frozen
      | none => none }

/-- What a cancellation leaves of a message: the launch's threads and tasks on their way go. -/
def Msg.afterCancel (num : Nat) (m : Msg) : Option Msg :=
  match m.body with
  | .migrate p => if p.th.launch == num then none else some m
  | .spawn t => if t.launch == num then none else some m
  | .stolen thief ts => some { m with body := .stolen thief (ts.filter (fun t => t.launch != num)) }
  | _ => some m

/-- Cancels one launch (R229, R342): its activities fail, its threads and tasks go, and it ends with STATUS 0x03. -/
def State.cancelLaunch (s : State) (l : Launch) : State :=
  let hs := s.dies.flatMap (fun e => List.filterMap (fun (a : Nat × Act) =>
    if a.2.launch == l.num && (a.2.st == .opened || a.2.st == .committing || a.2.st == .abandoning)
      then some (handleOf e.1 a.1 a.2) else none) e.2.acts)
  let s := hs.foldl (fun s h => (s.onAct h (fun a => { a with st := .failed })).discardRecords h) s
  let mine := (List.filter (fun (e : Nat × Ctx) => ctxOf e.1 != 0 && e.2.ofLaunch l.num) s.ctxs).map (fun e => e.1)
  let s := mine.foldl (fun s cid => s.dropThread cid) s
  let keep (p : Parked) : Bool := p.th.launch != l.num
  let s := (s.heldAt.filter (fun x => !keep x.2)).foldl State.dropHeld s
  let s := s.net.foldl (State.freeEntry l.num) s
  let s := { s with
    ctxs := s.ctxs.mapVal (fun c => match c.reserved with
      | some t => if t.launch == l.num then { c with reserved := none } else c
      | none => c)
    cores := s.cores.mapVal (fun c => { c with arrivals := c.arrivals.filter keep, cache := c.cache.filter keep })
    dies := s.dies.mapVal (fun d =>
      { d with
        spill := d.spill.filter (fun e => keep e.parked)
        queue := d.queue.filter (fun t => t.launch != l.num)
        posts := d.posts.filter (fun p => p.2 != l.num)
        doms := d.doms.mapVal (s.domOff hs) })
    net := s.net.filterMap (Msg.afterCancel l.num) }
  s.endLaunch l 3

/-- GANG_CANCEL (R378, R229). -/
def execGangCancel (part : Nat) (s : State) : Out State :=
  .next ((s.launches.filter (fun l => l.part == part && !l.ended)).foldl (fun s l => s.cancelLaunch l) s)

end Sys2Proof.Machine
end

