-- ==== Sys2Proof/Machine/Sched.lean ====
section
/-! DEFINITION. The steps of the dies' schedulers and of travel: queue ageing, binding, bank power, stealing, rescue,
departure, arrival and containment (R43 to R58, R228, R230). -/

namespace Sys2Proof.Machine

open Sys2Proof

/-! ### Queues and binding -/

/-- A queued task after a full 4,096 cycles of the current period (R43). -/
def Task.aged (t : Task) : Task := if 4096 ≤ t.spent then { t with age := t.age + 1, spent := t.spent - 4096 } else t

/-- TASK_AGE (R43): the priority of a queued task has risen once it has been queued for 4,096 more cycles. -/
def execTaskAge (die k : Nat) (s : State) : Out State :=
  .next (s.onDie die (fun d => { d with queue := d.queue.modify k Task.aged }))

/-- TASK_BIND (R44): the first task in the order of R43 that can be bound in the cluster. A routine posted on the die
that can be bound here has precedence (R345). -/
def execTaskBind (cluster : Nat) (s : State) : Out State :=
  let die := cluster / 48
  if (s.nextPost cluster).isSome then .next s
  else
    match (dispenseOrder (s.die die).queue).find? (fun t => (s.target cluster t).isSome) with
    | none => .next s
    | some t =>
      match s.target cluster t, s.launch t.launch with
      | some cid, some l =>
        .next ((s.onDie die (fun d => { d with queue := d.queue.erase t })).bind cid l t.entry t.args t.wid id)
      | _, _ => .next s

/-! ### Bank power (R45, R57, R58) -/

/-- A scratchpad key of a core. -/
def inPad (core k : Nat) : Bool := decide (padAt core 0 ≤ k) && decide (k < padAt core 0 + 2 ^ 19)

/-- BANK_POWER_UP_DONE (R45, R254, R332): the banks come up zero-filled and full, and reserved bindings complete. -/
def execBankPowerUpDone (core : Nat) (s : State) : Out State :=
  if !(s.core core).powering then .next s
  else
    let s := s.onCore core (fun c =>
      { c.freshCounts with
        powered := true
        powering := false
        groups := []
        badWords := []
        softWords := []
        acc := []
        badAcc := [] })
    .next ((launchCtxs core).foldl (fun s cid =>
      match (s.ctx cid).reserved with
      | none => s
      | some t =>
        let c := s.ctx cid
        (s.occupy cid t c.asyncs).onCtx cid (fun x => { x with faults := c.faults, replies := c.replies })) s)

/-- The conditions of R57. -/
def State.mayPowerDown (s : State) (core : Nat) : Bool :=
  let c := s.core core
  c.powered && c.retained.isNone
    && (launchCtxs core).all (fun cid => (s.ctx cid).run == .vacant && (s.ctx cid).reserved.isNone)
    && c.arrivals.isEmpty && c.cache.isEmpty && ((s.die (dieOf core)).spilledFor core).isEmpty
    && c.ib.isEmpty && s.ringEmpty core

/-- A watcher of a word is made runnable, and its watch goes (R58). -/
def State.loseWatch (s : State) (w : Nat × Nat) : State :=
  s.onCtx w.2 (fun x => { x with ready := true, watching := List.filter (fun (e : Nat × Bool) => s.phys e.1 != some w.1) x.watching })

/-- BANK_POWER_DOWN (R57, R58): the contents are lost, every request queued in the core's wait table is refused with
ACCESS_FAULT, and every watcher of its watch table is made runnable before its watch goes. -/
def execBankPowerDown (core : Nat) (s : State) : Out State :=
  if !s.mayPowerDown core then .next s
  else
    let c := s.core core
    let s := c.waits.foldl (fun s w => s.send core (coreOf w.req.cid) (.fault w.req 1 false)) s
    let s := c.watches.foldl State.loseWatch s
    let s := (c.reserved.filter (fun e => inPad core e.1)).foldl (fun s e => s.unreserve e.1) s
    .next ({ s with mem := s.mem.filter (fun e => !inPad core e.1) }.onCore core (fun c =>
      { c with
        powered := false
        powering := false
        waits := []
        watches := []
        reserved := List.filter (fun (e : Nat × Held) => !inPad core e.1) c.reserved
        groups := []
        badWords := []
        softWords := []
        acc := []
        badAcc := []
        ringW := 0
        ringO := 0
        ringUsed := 0 }))

/-! ### Stealing (R51) -/

/-- The dies that a die asks, in order: the vertical neighbour, the west one, the east one, of its partition. -/
def State.victims (s : State) (die : Nat) : List Nat :=
  (((if die < 4 then [die + 4] else [die - 4]) ++ (if die % 4 = 0 then [] else [die - 1])
    ++ (if die % 4 = 3 then [] else [die + 1])).filter (fun d => s.partOf d == s.partOf die && !s.offDies.contains d))

/-- The unended launches of a die's partition; 0, which owns no slot, when there is none. -/
def State.launchesNow (s : State) (die : Nat) : List Nat :=
  match (s.launches.filter (fun l => l.part == s.partOf die && !l.ended)).map (fun l => l.num) with
  | [] => [0]
  | ls => ls

/-- Some context of a die is offered under R44, for one launch or another. -/
def State.someOffered (s : State) (die : Nat) : Bool :=
  (coresOfDie die).any (fun core => (s.launchesNow die).any (fun l =>
    !s.keptFrom core l && (launchCtxs core).any (fun cid => s.idleFor cid l || s.vacantFor cid l)))

/-- No queued task of a die can be bound to a context that is offered now. -/
def State.noneBindable (s : State) (die : Nat) : Bool :=
  (s.die die).queue.all (fun t => (clustersOfDie die).all (fun cl => (s.target cl t).isNone))

/-- STEAL_REQUEST (R51). Log 79: the die asked next is the one after the die asked last, whatever came of that request. -/
def execStealRequest (die : Nat) (s : State) : Out State :=
  let d := s.die die
  let vs := s.victims die
  if d.stealOut || d.stealWait || vs.isEmpty || !s.someOffered die || !s.noneBindable die then .next s
  else
    let v := vs.getD (d.stealDir % vs.length) die
    .next ((s.onDie die (fun d => { d with stealOut := true, stealDir := d.stealDir + 1 })).send (schedOf die) (schedOf v)
      (.steal die (s.queueRoom die)))

/-- Tasks in enqueue order. -/
def insertBorn (t : Task) : List Task → List Task
  | [] => [t]
  | u :: rest => if t.born < u.born then t :: u :: rest else u :: insertBorn t rest

/-- STEAL_ANSWER (R51): the older half, rounded up, of the any-die tasks of launches whose dies include the thief. -/
def execStealAnswer (n : Nat) (s : State) : Out State :=
  match s.msgAt n with
  | some ⟨src, dst, .steal thief places⟩ =>
    let die := dst - 0x1000
    let ok (t : Task) : Bool := t.anyDie && (match s.launch t.launch with
      | some l => l.dies.getLsbD thief
      | none => false)
    let cand := ((s.die die).queue.filter ok).foldl (fun l t => insertBorn t l) []
    let ts := (cand.take ((cand.length + 1) / 2)).take places
    .next (((s.dropMsg n).onDie die (fun d => { d with queue := d.queue.filter (fun t => !ts.contains t) })).send dst src (.stolen thief ts))
  | _ => .next s

/-- STOLEN_TASKS_ARRIVAL (R51): the thief appends the tasks, or counts a failed request. -/
def execStolenTasksArrival (n : Nat) (s : State) : Out State :=
  match s.msgAt n with
  | some ⟨_, _, .stolen thief ts⟩ =>
    .next ((s.dropMsg n).onDie thief (fun d =>
      let fails := if ts.isEmpty then d.stealFail + 1 else 0
      { d with queue := d.queue ++ ts, stealOut := false, stealFail := fails, stealWait := d.stealWait || decide (3 ≤ fails) }))
  | _ => .next s

/-- STEAL_BACKOFF (R51): the wait after three failed requests is over. -/
def execStealBackoff (die : Nat) (s : State) : Out State :=
  .next (s.onDie die (fun d => if d.stealWait then { d with stealWait := false, stealFail := 0 } else d))

/-- SPAWN_PUSH_ARRIVAL (R60). -/
def execSpawnPushArrival (n : Nat) (s : State) : Out State :=
  match s.msgAt n with
  | some ⟨_, dst, .spawn t⟩ =>
    let die := dst - 0x1000
    .next (((s.dropMsg n).enqueue die t).onDie die (fun d => { d with recv := d.recv.set t.launch (d.recv.get t.launch 0 + 1) }))
  | _ => .next s

/-! ### Rescue (R50) -/

/-- A context is parked at a SPAWN. -/
def Ctx.spawning (c : Ctx) : Bool :=
  match c.run with
  | .parked (.spawn _) => true
  | _ => false

/-- The contexts of a launch on a die. -/
def State.launchOn (s : State) (die launch : Nat) : List (Nat × Ctx) :=
  List.filter (fun (e : Nat × Ctx) => dieOf (coreOf e.1) == die && ctxOf e.1 != 0 && e.2.ofLaunch launch) s.ctxs

/-- A queued task of a launch could be bound: now, or to a context of the launch on the die that a rescue would free (R50). -/
def State.bindableOn (s : State) (die launch : Nat) : Bool :=
  (s.die die).queue.any (fun t => t.launch == launch
    && ((clustersOfDie die).any (fun cl => (s.target cl t).isSome)
      || (s.launchOn die launch).any (fun e => t.pinOk e.1 && !s.keptFrom (coreOf e.1) launch)))

/-- Every context of a launch on a die is parked at a SPAWN, and the die's queue holds a bindable task of it (R50). -/
def State.stuckAt (s : State) (die launch : Nat) : Bool :=
  (s.launchOn die launch).all (fun e => e.2.spawning) && s.bindableOn die launch

/-- A spawner that a die rescues: its launch is stuck there, its own limit still holds, and it can be held (R50). -/
def State.rescuable (s : State) (die cid : Nat) : Bool :=
  let c := s.ctx cid
  (match c.run with
    | .parked (.spawn d) => dieOf (coreOf cid) == die && !s.spawnOpen d c.th.launch
    | _ => false)
    && s.stuckAt die c.th.launch && s.mayHold cid

/-- Spawners in the order in which they parked. -/
def insertSpawner (k : Nat × Nat) : List (Nat × Nat) → List (Nat × Nat)
  | [] => [k]
  | j :: rest => if k.1 < j.1 then k :: j :: rest else j :: insertSpawner k rest

/-- Every parked spawner, in the order of parking, whatever die it waits for. -/
def State.parkOrder (s : State) : List Nat :=
  ((s.dies.flatMap (fun e => e.2.spawners)).foldl (fun l k => insertSpawner k l) []).map (fun k => k.2)

/-- SPAWNER_RESCUE (R50): the spawner that parked earliest and can be held, once its OUTLD and UNACK are zero. -/
def execSpawnerRescue (die : Nat) (s : State) : Out State :=
  match s.parkOrder.find? (fun cid => s.rescuable die cid) with
  | none => .next s
  | some cid => .next (if s.countsZero cid then s.suspend cid .rescued else s)

/-! ### Travel (R53, R54, R230) -/

/-- THREAD_DEPART (R54): a thread that waits for its drains leaves once they are done. -/
def execThreadDepart (cid : Nat) (s : State) : Out State :=
  match (s.ctx cid).run with
  | .waiting (.depart tgt mask whole after) | .parked (.depart tgt mask whole after) =>
    if s.mayDepart cid then
      match (s.fetchWord cid (s.ctx cid).th.pc).map decode with
      | some (.ok i) =>
        match ({ s with cur := cid }).travel i 0 tgt mask whole after with
        | .next t => .next { t with cur := s.cur }
        | o => o
      | _ => .next s
    else .next s
  | _ => .next s

/-- Starts the power-up of a core's banks (R58). -/
def State.powerUp (s : State) (core : Nat) : State :=
  s.onCore core (fun c => if c.powered then c else { c with powering := true })

/-- A migration that its destination has admitted or holds: it is counted as received, and the source's reserved entry is
freed (R53, R60). -/
def State.migrationTaken (s : State) (src dst launch : Nat) : State :=
  (s.countRecv dst launch).onCore src (fun c => { c with inflight := c.inflight - 1 })

/-- MIGRATION_ARRIVAL (R53): a vacant context, the arrival queue, the cache, the spill area (live engine state goes to the save
area, R227), or a refusal. Log 78: a thread with live engine state and no stack slot is refused the spill area as when it is
full. -/
def execMigrationArrival (n : Nat) (s : State) : Out State :=
  match s.msgAt n with
  | some ⟨src, dst, .migrate p⟩ =>
    let s := s.dropMsg n
    let c := s.core dst
    let q : Parked := { p with why := .arrival }
    let spilled := (s.spilled dst).isEmpty
    let cached := c.cache.all (fun x => x.why != .arrival)
    let open_ := !s.severed src dst
    match (if open_ && (s.oldestArrival dst).isNone then s.vacantCtx dst else none) with
    | some cid => .next ((s.migrationTaken src dst p.th.launch).letIn cid q)
    | none =>
      if open_ && spilled && cached && decide (c.arrivals.length < Config.arrivalMax) then
        .next (((s.migrationTaken src dst p.th.launch).onCore dst (fun c => { c with arrivals := c.arrivals ++ [q] })).powerUp dst)
      else if open_ && spilled && decide (c.cacheUsed < Config.cacheMax) then
        .next (((s.migrationTaken src dst p.th.launch).onCore dst (fun c => { c with cache := c.cache ++ [q] })).powerUp dst)
      else if open_ && (s.die (dieOf dst)).spill.length < Config.spillMax && (p.th.slot.isSome || !p.th.engineLive) then
        let (s, t) := (s.migrationTaken src dst p.th.launch).saveEngine q.th
        .next (s.onDie (dieOf dst) (fun d => d.spillIn dst { q with th := t }))
      else
        let delay := match p.why with
          | .resend _ k => min 16384 (2 * k)
          | _ => 256
        .next ((s.onCore src (fun c =>
          { c with inflight := c.inflight - 1, cache := c.cache ++ [{ p with why := .resend dst delay }] })).powerUp src)
  | _ => .next s

/-- MIGRATION_RESEND (R53). Log 90: a later migration of the core to the same destination is not held back meanwhile. -/
def execMigrationResend (core : Nat) (s : State) : Out State :=
  match (s.core core).cache.find? (fun p => match p.why with | .resend .. => true | _ => false) with
  | some p =>
    match p.why with
    | .resend dst _ =>
      .next ((s.onCore core (fun c => { c with cache := c.cache.erase p, inflight := c.inflight + 1 })).send core dst (.migrate p))
    | _ => .next s
  | none => .next s

/-- ARRIVAL_MOVE (R230): from the cache to the queue, or from the spill area to the cache. Log 91: it moves into any room that
there is when it finishes, and until then the room is free for any thread that may be held there. -/
def execArrivalMove (core : Nat) (s : State) : Out State :=
  let c := s.core core
  match (if c.arrivals.length < Config.arrivalMax then c.cache.find? (fun p => p.why == .arrival) else none) with
  | some p => .next (s.onCore core (fun c => { c with cache := c.cache.erase p, arrivals := c.arrivals ++ [p] }))
  | none =>
    match (if c.cacheUsed < Config.cacheMax then (s.spilled core).head? else none) with
    | some p =>
      .next ((s.onDie (dieOf core) (fun d => d.spillOut core p)).onCore core
        (fun c => { c with cache := c.cache ++ [p] }))
    | none => .next s

/-! ### Containment (R228) -/

/-- The launch of a thread counts a containment kill (R60, R228). -/
def State.countKill (s : State) (launch : Nat) : State :=
  s.onLaunch launch (fun l => { l with kills := l.kills + 1, killed := true })

/-- CONTAINMENT_KILL (R228, R349): a packet of the context has consumed an uncorrectable error in its thread's state. -/
def execContainmentKill (cid : Nat) (what : BitVec 4) (s : State) : Out State :=
  let c := s.ctx cid
  if !c.holdsThread then .next s
  else if ctxOf cid == 0 then
    .next ((s.kill cid).onCtx cid (fun c => { c with run := .parked (.restart Cause.contained.code.toNat) }))
  else
    let detail := BitVec.ofNat 64 (ctxOf cid + what.toNat * 16)
    let told (s : State) : State := (s.countKill c.th.launch).supervise (coreOf cid) .contained detail
    match c.th.routine with
    | some _ => .next (told (s.failRoutine cid killStatus))
    | none => .next (told (s.kill cid))

end Sys2Proof.Machine
end

