-- ==== Sys2Proof/Machine/Vector.lean ====
section
/-! DEFINITION. The vector siding (majors 0x38 to 0x3B and its steps; R279 to R300): what an instruction does at stage 8,
and what its command does when the siding performs it. -/

namespace Sys2Proof

/-! ### Types (R279) -/

/-- Bits of an element. -/
def VType.bits : VType → Nat
  | .f32 | .i32 | .n32 => 32
  | .f64 | .i64 => 64
  | .bf16 | .i16 => 16
  | .i8 => 8

/-- E. -/
def VType.count : VType → Nat
  | .f64 | .i64 => 32
  | _ => 64

/-- Bytes of an element. -/
def VType.bytes (t : VType) : Nat := t.bits / 8

/-- The IEEE format of a floating-point type. -/
def VType.fmt : VType → Option Machine.Fmt
  | .f32 => some Machine.fp32
  | .f64 => some Machine.fp64
  | .bf16 => some Machine.bf16
  | _ => none

/-- The type is a signed integer type. -/
def VType.signed : VType → Bool
  | .i32 | .i64 | .i16 | .i8 => true
  | _ => false

/-- The limits of an integer type. -/
def VType.lo (t : VType) : Int := if t.signed then -(2 ^ (t.bits - 1) : Int) else 0
def VType.hi (t : VType) : Int := if t.signed then (2 ^ (t.bits - 1) : Int) - 1 else (2 ^ t.bits : Int) - 1

/-- The levels of a tree of E values. -/
def VType.levels (t : VType) : Nat := if t.count = 64 then 6 else 5

/-- The instructions that deliver a vq record (R297). -/
def Instr.ownsRecord : Instr → Bool
  | .vext .. => true
  | _ => false

end Sys2Proof

namespace Sys2Proof.Machine

open Sys2Proof

/-! ### Types, elements and lanes (R279, R280) -/

/-- Element i of register v in a lane table. -/
def vget (g : Tab Word32) (t : VType) (v i : Nat) : Nat :=
  if t.bits = 64 then (g.get (v * 64 + 2 * i) 0).toNat + (g.get (v * 64 + 2 * i + 1) 0).toNat * 2 ^ 32
  else (g.get (v * 64 + i) 0).toNat % 2 ^ t.bits

/-- Writes element i of register v. -/
def vput (g : Tab Word32) (t : VType) (v i x : Nat) : Tab Word32 :=
  if t.bits = 64 then (g.set (v * 64 + 2 * i) (BitVec.ofNat 32 x)).set (v * 64 + 2 * i + 1) (BitVec.ofNat 32 (x / 2 ^ 32))
  else if t.signed then g.set (v * 64 + i) (lo32 (sextW x t.bits))
  else g.set (v * 64 + i) (BitVec.ofNat 32 (x % 2 ^ t.bits))

/-- Element i is active under a mask code. -/
def Thread.active (t : Thread) (m : BitVec 3) (i : Nat) : Bool :=
  m == 0 || bit (t.kreg.get (m.toNat - 1) 0) i

/-- Sets a mask register. -/
def Thread.setK (t : Thread) (k : Nat) (v : Word) : Thread := { t with kreg := t.kreg.set k v }

/-- Writes f i to every element of register d that `ok` accepts; the flags are the OR over them (R267, R280). -/
def Thread.eachIf (t : Thread) (ty : VType) (d : BitVec 3) (ok : Nat → Bool) (f : Nat → Res) : Thread × Flags :=
  let r := (List.range ty.count).foldl (fun (acc : Tab Word32 × Flags) i =>
    if ok i then let x := f i; (vput acc.1 ty d.toNat i x.1, acc.2 ||| x.2) else acc) (t.vreg, 0)
  ({ t with vreg := r.1 }, r.2)

/-- Writes f i to every active element of register d. -/
def Thread.each (t : Thread) (ty : VType) (d m : BitVec 3) (f : Nat → Res) : Thread × Flags := t.eachIf ty d (t.active m) f

/-- Element i of a named register. -/
def Thread.el (t : Thread) (ty : VType) (v : BitVec 3) (i : Nat) : Nat := vget t.vreg ty v.toNat i

/-! ### Element results -/

/-- A floating-point result in the type's format. -/
def fpOp (ty : VType) (f : Fmt → Res) : Res := (ty.fmt.map f).getD (0, 0)

/-- VABS and VNEG (R286). -/
def Fmt.signOp (m : Fmt) (flip : Bool) (a : Nat) : Res :=
  match m.get a with
  | .nan b => (m.quiet b, m.snv (.nan b))
  | _ =>
    let x := a % 2 ^ (m.e + m.f)
    (if flip && decide (a % 2 ^ m.width < 2 ^ (m.e + m.f)) then x + 2 ^ (m.e + m.f) else x, 0)

/-- An integer reduced to an element. -/
def wrapEl (ty : VType) (z : Int) : Nat := (z % 2 ^ ty.bits).toNat

/-- The integer that an element stands for. -/
def intEl (ty : VType) (x : Nat) : Int := if ty.signed then signedOf x ty.bits else (x : Int)

/-- Integer results (R289). -/
def intMin (ty : VType) (a b : Nat) : Nat := if intEl ty a ≤ intEl ty b then a else b
def intMax (ty : VType) (a b : Nat) : Nat := if intEl ty a ≤ intEl ty b then b else a
def intAbs (ty : VType) (a : Nat) : Nat := if ty.signed then wrapEl ty (signedOf a ty.bits).natAbs else a
def intShl (ty : VType) (a n : Nat) : Nat := if ty.bits ≤ n then 0 else a * 2 ^ n % 2 ^ ty.bits
def intShr (ty : VType) (a n : Nat) : Nat := if ty.bits ≤ n then 0 else a / 2 ^ n
def intSha (ty : VType) (a n : Nat) : Nat :=
  wrapEl ty (signedOf a ty.bits / 2 ^ (if n < ty.bits - 1 then n else ty.bits - 1))
def intAndn (ty : VType) (a b : Nat) : Nat := a &&& (2 ^ ty.bits - 1 - b)

/-- An integer relation (R290): EQ, NE, LT, LE, GT, GE. -/
def intCmp (ty : VType) (rel a b : Nat) : Bool :=
  let x := intEl ty a
  let y := intEl ty b
  match rel with
  | 0 => x == y
  | 1 => x != y
  | 2 => decide (x < y)
  | 3 => decide (x ≤ y)
  | 4 => decide (y < x)
  | 5 => decide (y ≤ x)
  | _ => false

/-- VCVT of one element (R270, R288). -/
def vconv (src dst : VType) (rm : BitVec 2) (x : Nat) : Res :=
  match src.fmt, dst.fmt with
  | some f, some g => f.convert g rm x
  | some f, none => let r := f.toInt rm dst.lo dst.hi x; (wrapEl dst r.1, r.2)
  | none, some g => g.ofInt rm (intEl src x)
  | none, none => (wrapEl dst (intEl src x), 0)

/-- A small number in a type (R292). -/
def natEl (ty : VType) (rm : BitVec 2) (n : Nat) : Nat :=
  match ty.fmt with
  | some m => (m.ofInt rm n).1
  | none => n

/-! ### Reductions (R274, R291) -/

/-- The identity of an operation: ADD, MAX, MIN. -/
def redId (ty : VType) (o : BitVec 2) : Nat :=
  match ty.fmt with
  | some m => if o = 0 then m.sign true else m.inf (o == 1)
  | none => if o = 0 then 0 else if o = 1 then wrapEl ty ty.lo else wrapEl ty ty.hi

/-- The elements that take part, an inactive one as the identity. -/
def Thread.redEls (t : Thread) (ty : VType) (a m : BitVec 3) (o : BitVec 2) : List Nat :=
  (List.range ty.count).map (fun i => if t.active m i then t.el ty a i else redId ty o)

/-- A floating-point reduction. -/
def fpRed (ty : VType) (rm o : BitVec 2) (xs : List Nat) : Res :=
  match ty with
  | .bf16 =>
    if o = 0 then
      let ys := xs.map (fun x => bf16.convert fp32 rm x)
      let (r, f) := fp32.tree rm (fun _ => fp32.nan) 6 0 (ys.map (fun y => y.1))
      let (z, g) := fp32.convert bf16 rm r
      (z, (ys.map (fun y => y.2)).foldl (· ||| ·) (f ||| g))
    else treeOp (bf16.minmax (o == 1)) 6 xs
  | _ =>
    fpOp ty (fun m => if o = 0 then m.tree rm (fun _ => m.nan) ty.levels 0 xs else treeOp (m.minmax (o == 1)) ty.levels xs)

/-- An integer reduction. -/
def intRed (ty : VType) (o : BitVec 2) (xs : List Nat) : Nat :=
  (treeOp (fun a b => (if o = 0 then (a + b) % 2 ^ ty.bits else if o = 1 then intMax ty a b else intMin ty a b, 0)) ty.levels xs).1

/-- The mask word of the active elements that a test accepts, and the flags (R290). -/
def Thread.cmpMask (t : Thread) (ty : VType) (m : BitVec 3) (f : Nat → Bool × Flags) : Word × Flags :=
  let r := (List.range ty.count).foldl (fun (acc : Nat × Flags) i =>
    if t.active m i then let x := f i; (if x.1 then acc.1 + 2 ^ i else acc.1, acc.2 ||| x.2) else acc) (0, 0)
  (BitVec.ofNat 64 r.1, r.2)

/-! ### Commands that act on registers only -/

/-- What a register command does to its thread's vector state, with its flags: the values of slots a and b and the
rounding mode were taken when it performed at stage 8. -/
def vregs (i : Instr) (rm : BitVec 2) (x y : Word) (t : Thread) : Thread × Flags :=
  let fp2 (ty : VType) (d a b m : BitVec 3) (f : Fmt → Nat → Nat → Res) :=
    t.each ty d m (fun k => fpOp ty (fun w => f w (t.el ty a k) (t.el ty b k)))
  let fp1 (ty : VType) (d a m : BitVec 3) (f : Fmt → Nat → Res) := t.each ty d m (fun k => fpOp ty (fun w => f w (t.el ty a k)))
  let in2 (ty : VType) (d a b m : BitVec 3) (f : Nat → Nat → Nat) :=
    t.each ty d m (fun k => (f (t.el ty a k) (t.el ty b k) % 2 ^ ty.bits, 0))
  let in1 (ty : VType) (d a m : BitVec 3) (f : Nat → Nat) := t.each ty d m (fun k => (f (t.el ty a k) % 2 ^ ty.bits, 0))
  match i with
  | .vaddFp d a b m ty _ => fp2 ty d a b m (fun w p q => w.add rm w.nan false p q)
  | .vsubFp d a b m ty _ => fp2 ty d a b m (fun w p q => w.add rm w.nan true p q)
  | .vmulFp d a b m ty _ => fp2 ty d a b m (fun w p q => w.mul rm w.nan p q)
  | .vfma d a b c m ty _ =>
    t.each ty d m (fun k => fpOp ty (fun w => w.fma rm false (t.el ty a k) (t.el ty b k) (t.el ty c k)))
  | .vfms d a b c m ty _ =>
    t.each ty d m (fun k => fpOp ty (fun w => w.fma rm true (t.el ty a k) (t.el ty b k) (t.el ty c k)))
  | .vminFp d a b m ty _ => fp2 ty d a b m (fun w p q => w.minmax false p q)
  | .vmaxFp d a b m ty _ => fp2 ty d a b m (fun w p q => w.minmax true p q)
  | .vabsFp d a m ty _ => fp1 ty d a m (fun w p => w.signOp false p)
  | .vnegFp d a m ty _ => fp1 ty d a m (fun w p => w.signOp true p)
  | .vdiv d a b m ty _ => fp2 ty d a b m (fun w p q => w.div rm p q)
  | .vsqrt d a m ty _ => fp1 ty d a m (fun w p => w.sqrt rm p)
  | .vrcp d a m ty _ => fp1 ty d a m (fun w p => w.rcp rm p)
  | .vrsq d a m ty _ => fp1 ty d a m (fun w p => w.rsq rm p)
  | .vexp2 d a m ty _ => fp1 ty d a m (fun w p => w.exp2 rm p)
  | .vlog2 d a m ty _ => fp1 ty d a m (fun w p => w.log2 rm p)
  | .vcvt d a src m ty _ =>
    t.each ty d m (fun k => if k < min ty.count src.count then vconv src ty rm (t.el src a k) else (0, 0))
  | .vcmpFp kd a b m r ty _ =>
    let c := t.cmpMask ty m (fun k => (ty.fmt.map (fun w => w.cmp r.toNat (t.el ty a k) (t.el ty b k))).getD (false, 0))
    (t.setK kd.toNat c.1, c.2)
  | .vredFp d a m o ty _ =>
    let r := fpRed ty rm o (t.redEls ty a m o)
    t.eachIf ty d (fun _ => true) (fun _ => r)
  | .vaddInt d a b m ty _ => in2 ty d a b m (fun p q => p + q)
  | .vsubInt d a b m ty _ => in2 ty d a b m (fun p q => p + (2 ^ ty.bits - q))
  | .vmulInt d a b m ty _ => in2 ty d a b m (fun p q => p * q)
  | .vminInt d a b m ty _ => in2 ty d a b m (intMin ty)
  | .vmaxInt d a b m ty _ => in2 ty d a b m (intMax ty)
  | .vabsInt d a m ty _ => in1 ty d a m (intAbs ty)
  | .vnegInt d a m ty _ => in1 ty d a m (fun p => 2 ^ ty.bits - p)
  | .vand d a b m ty _ => in2 ty d a b m (fun p q => p &&& q)
  | .vor d a b m ty _ => in2 ty d a b m (fun p q => p ||| q)
  | .vxor d a b m ty _ => in2 ty d a b m (fun p q => p ^^^ q)
  | .vandn d a b m ty _ => in2 ty d a b m (intAndn ty)
  | .vshl d a b m ty _ => in2 ty d a b m (intShl ty)
  | .vshr d a b m ty _ => in2 ty d a b m (intShr ty)
  | .vsha d a b m ty _ => in2 ty d a b m (intSha ty)
  | .vcmpInt kd a b m r ty _ =>
    (t.setK kd.toNat (t.cmpMask ty m (fun k => (intCmp ty r.toNat (t.el ty a k) (t.el ty b k), 0))).1, 0)
  | .vredInt d a m o ty _ =>
    let r := intRed ty o (t.redEls ty a m o)
    t.eachIf ty d (fun _ => true) (fun _ => (r, 0))
  | .vsel d a b m ty _ => t.eachIf ty d (fun _ => true) (fun k => (if t.active m k then t.el ty a k else t.el ty b k, 0))
  | .vperm d a b m ty _ => t.each ty d m (fun k => (t.el ty a (t.el .n32 b k % ty.count), 0))
  | .vslup d a b m ty _ =>
    let n := t.el .n32 b 0
    t.each ty d m (fun k => (if n ≤ k then t.el ty a (k - n) else 0, 0))
  | .vsldn d a b m ty _ =>
    let n := t.el .n32 b 0
    t.each ty d m (fun k => (if k + n < ty.count then t.el ty a (k + n) else 0, 0))
  | .viota d m ty _ => t.each ty d m (fun k => (natEl ty rm k, 0))
  | .vpopk d m ty _ =>
    let n := popNat ty.count (t.kreg.get (m.toNat - 1) 0).toNat
    t.eachIf ty d (fun _ => true) (fun _ => (natEl ty rm n, 0))
  | .vbcst d _ m ty _ => t.each ty d m (fun _ => (x.toNat % 2 ^ ty.bits, 0))
  | .vins d _ _ ty _ => t.eachIf ty d (fun k => k == y.toNat) (fun _ => (x.toNat % 2 ^ ty.bits, 0))
  | .vsetk k _ _ => (t.setK k.toNat x, 0)
  | .vmovk k src _ => (t.setK k.toNat (t.kreg.get src.toNat 0), 0)
  | _ => (t, 0)

/-! ### Commands that access memory (R293 to R295, R299) -/

/-- A memory command: whether it stores, its register, type and mask, and the address of element k. -/
structure VMem where
  st : Bool
  d : BitVec 3
  ty : VType
  m : BitVec 3
  addr : Nat → Word

/-- The memory part of a vector instruction (R293). -/
def vmem (i : Instr) (x y : Word) (t : Thread) : Option VMem :=
  let unit (ty : VType) (k : Nat) : Word := x + BitVec.ofNat 64 (k * ty.bytes)
  let stride (k : Nat) : Word := x + BitVec.ofNat 64 k * y
  let index (v : BitVec 3) (k : Nat) : Word := x + BitVec.ofNat 64 (t.el .n32 v k)
  match i with
  | .vld d _ m ty _ => some ⟨false, d, ty, m, unit ty⟩
  | .vst d _ m ty _ => some ⟨true, d, ty, m, unit ty⟩
  | .vlds d _ _ m ty _ => some ⟨false, d, ty, m, stride⟩
  | .vsts d _ _ m ty _ => some ⟨true, d, ty, m, stride⟩
  | .vgath d _ v m ty _ => some ⟨false, d, ty, m, index v⟩
  | .vscat d _ v m ty _ => some ⟨true, d, ty, m, index v⟩
  | _ => none

/-- An element address that R293 accepts, with the banks up. -/
def State.elOk (s : State) (core : Nat) (x : Word) (n : Nat) : Bool :=
  (s.core core).powered && isPad x && bits x 31 32 == 0 && bits x 19 12 == core && x.toNat % n == 0

/-- The loads of elements in order: the state, and the values, or the first faulting address. -/
def State.vloads (s : State) (core : Nat) (v : VMem) (act : Nat → Bool) : List Nat → Except (State × Word) (State × List (Nat × Nat))
  | [] => .ok (s, [])
  | k :: rest =>
    if act k then
      let x := v.addr k
      match (if s.elOk core x v.ty.bytes then s.load x.toNat v.ty.bytes else none) with
      | none => .error (s, x)
      | some (w, s) => match State.vloads s core v act rest with
        | .error e => .error e
        | .ok (s, l) => .ok (s, (k, w) :: l)
    else State.vloads s core v act rest

/-- The stores of elements in order from the first still to do: the state, or the first faulting element. -/
def State.velements (s : State) (core : Nat) (v : VMem) (t : Thread) : List Nat → Except (State × Nat × Word) State
  | [] => .ok s
  | k :: rest =>
    if t.active v.m k then
      let x := v.addr k
      match (if s.elOk core x v.ty.bytes then s.store x.toNat (leBytes v.ty.bytes (t.el v.ty v.d k)) else none) with
      | none => .error (s, k, x)
      | some s => State.velements s core v t rest
    else State.velements s core v t rest

/-- What a command comes to: done with its flags and its record, or stopped at an element. -/
inductive VOut where
  | done (s : State) (f : Flags) (r : Option Rec)
  | fault (s : State) (addr : Word) (k : Nat)

/-- PERFORMS a vector command of a core (R281, R294 to R298). -/
def State.vperform (s : State) (core : Nat) (c : VCmd) : VOut :=
  let t := s.owner c.cid
  match c.i with
  | .vldk kd _ _ =>
    match (if s.elOk core c.a 8 then s.load c.a.toNat 8 else none) with
    | none => .fault s c.a 0
    | some (w, s) => .done (s.onOwner c.cid (fun t => t.setK kd.toNat (BitVec.ofNat 64 w))) 0 none
  | .vstk kd _ _ =>
    match (if s.elOk core c.a 8 then s.store c.a.toNat else fun _ => none) (leBytes 8 (t.kreg.get kd.toNat 0).toNat) with
    | none => .fault s c.a 0
    | some s => .done s 0 none
  | .vext d _ ty _ =>
    let b := c.b.toNat
    let v := t.el ty d b
    .done s 0 (some ⟨doneHeader c.cid 4 0 0 b, if ty.signed then sextW v ty.bits else BitVec.ofNat 64 v⟩)
  | i =>
    match vmem i c.a c.b t with
    | some v =>
      if v.st then
        match s.velements core v t ((List.range v.ty.count).drop c.start) with
        | .error (s, k, x) => .fault s x k
        | .ok s => .done s 0 none
      else
        match s.vloads core v (t.active v.m) (List.range v.ty.count) with
        | .error (s, x) => .fault s x 0
        | .ok (s, l) =>
          .done (s.onOwner c.cid (fun t =>
            { t with vreg := l.foldl (fun g e => vput g v.ty v.d.toNat e.1 e.2) t.vreg })) 0 none
    | none =>
      let r := vregs i c.rm c.a c.b t
      .done (s.onOwner c.cid (fun _ => r.1)) r.2 none

/-- The k-th command of a core's vector queue, when it is the oldest of its context. -/
def State.vcmdAt (s : State) (core k : Nat) : Option VCmd :=
  match (s.core core).vq[k]? with
  | none => none
  | some c => if ((s.core core).vq.take k).any (fun d => d.cid == c.cid) then none else some c

/-- Takes a command off the queue; the release of an ATOM may have waited for its store (R189). -/
def State.vdrop (s : State) (core k : Nat) : State :=
  (s.onCore core (fun c => { c with vq := c.vq.eraseIdx k })).releasesDue core

/-- A late fault of a command of a thread, in its context or held by its core (R221, R226). -/
def State.engineFault (s : State) (cid : Nat) (f : Faulted) : State :=
  if cid < 65536 then s.reportFault cid f
  else
    let g (p : Parked) : Parked := if p.origin == cid then { p with faults := insertFault f p.faults } else p
    let core := coreOf (baseCid cid)
    (s.onCore core (fun c => { c with cache := c.cache.map g })).onDie (dieOf core)
      (fun d => { d with spill := d.spill.map (Spill.map g) })

/-- The vector command that the siding may perform: none while the clock stands (R389). -/
def State.vcmdNow (s : State) (core k : Nat) : Option VCmd := if s.clockStops core then none else s.vcmdAt core k

/-- VECTOR_COMPLETE (R281, R267, R297, R300): a command is performed, its flags merge and its record enters vq. -/
def execVectorComplete (core k : Nat) (s : State) : Out State :=
  match s.vcmdNow core k with
  | none => .next s
  | some c =>
    match s.vperform core c with
    | .fault .. => .next s
    | .done s' f r =>
      .next ((s'.vdrop core k).onOwner c.cid (fun t =>
        { t with fpflags := t.fpflags ||| f, vlive := true, vq := match r with
          | some r => t.vq ++ [r]
          | none => t.vq }))

/-- VECTOR_FAULT (R299): a command stops at its first faulting element, with a late ENGINE_FAULT. -/
def execVectorFault (core k : Nat) (s : State) : Out State :=
  match s.vcmdNow core k with
  | none => .next s
  | some c =>
    match s.vperform core c with
    | .done .. => .next s
    | .fault s' x n => .next ((s'.vdrop core k).engineFault c.cid ⟨6, 2, none, c.seq, x, .vec { c with start := n }⟩)

/-! ### Energy (R282 to R285) -/

/-- The cost of a class on the running core. -/
def State.costOf (s : State) (e : BitVec 2) : Nat := bits (s.core s.here).ecost (16 * e.toNat) 16

/-- The launch of a context debits nothing: it has EBUDGET 0, or there is none (context 0). -/
def State.unbudgeted (s : State) (cid : Nat) : Bool :=
  match (if ctxOf cid = 0 then none else s.launch (s.ctx cid).th.launch) with
  | some l => l.ebudget == 0
  | none => true

/-- A budget covers a cost. -/
def State.affords (s : State) (cid cost : Nat) : Bool := s.unbudgeted cid || decide (cost ≤ (s.ctx cid).th.ebudget.toNat)

/-- Debits a cost. -/
def State.debit (s : State) (cost : Nat) : State :=
  if s.unbudgeted s.cur then s else s.withTh (fun t => { t with ebudget := t.ebudget - BitVec.ofNat 32 cost })

/-- Waits for energy, or debits it and goes on with the state in which the operands are popped. -/
def State.withEnergy (s s' : State) (e : BitVec 2) (k : State → Out State) : Out State :=
  if s.affords s.cur (s.costOf e) then k (s'.debit (s.costOf e)) else s.waitFor (.energy (s.costOf e))

/-- ENERGY_REFILL (R282). -/
def execEnergyRefill (core : Nat) (s : State) : Out State :=
  let c := s.core core
  if c.ehold then .next s
  else
    .next ((launchCtxs core).foldl (fun s cid =>
      let x := s.ctx cid
      if x.holdsThread && x.run != .suspended && !s.unbudgeted cid then
        match s.launch x.th.launch with
        | some l => s.onCtx cid (fun x => { x with th := { x.th with
            ebudget := BitVec.ofNat 32 (min l.ebudget (x.th.ebudget.toNat + l.erefill * c.eshare.toNat / 256)) } })
        | none => s
      else s) s)

/-! ### What an instruction does at stage 8 (R281, R293, R296, R297) -/

/-- Records of vq held by a thread, or owed to it by queued VEXTs (R297). -/
def State.vrecords (s : State) (cid : Nat) : Nat :=
  (s.ctx cid).th.vq.length + ((s.core (coreOf cid)).vq.filter (fun c => c.cid == cid && (match c.i with
    | .vext .. => true
    | _ => false))).length

/-- A VECTOR INSTRUCTION performs: operands, checks, energy, and the command enters the queue of 16. -/
def vissue (i : Instr) (e : BitVec 2) (a b : Reg) (check : State → Word → Word → Option (Cause × Word)) (s : State) : Out State :=
  s.withOps a b .zr (fun s' x y =>
    match check s x y with
    | some (c, v) => s.raise c v
    | none =>
      if Config.vqueueMax ≤ (s.core s.here).vq.length then s.waitFor .vspace
      else if i.ownsRecord && decide (Config.laneMax ≤ s.vrecords s.cur) then s.waitFor .vrecord
      else
        s.withEnergy s' e (fun s' =>
          s.done i (s'.onCore s.here (fun c => { c with vq := c.vq ++ [⟨s.cur, s.seqNow, i, x, y, s.th.fpmode, 0⟩] }))))

/-- No check. -/
def noCheck (_ : State) (_ _ : Word) : Option (Cause × Word) := none

/-- The checks of R293 for a base alignment. -/
def baseCheck (al : Nat) (s : State) (x _ : Word) : Option (Cause × Word) :=
  if x.toNat % al != 0 then some (.misaligned, x)
  else if !isPad x || bits x 31 32 != 0 || bits x 19 12 != s.here || s.retainedFor s.cur s.here then some (.badAddress, x)
  else none

/-- The check of an element number (R296, R297). -/
def elementCheck (ty : VType) (_ : State) (_ y : Word) : Option (Cause × Word) :=
  if ty.count ≤ y.toNat then some (.badAddress, y) else none

/-- A register instruction. -/
def vreg2 (i : Instr) (e : BitVec 2) (s : State) : Out State := vissue i e .zr .zr noCheck s

/-- A memory instruction, behind an acquire that left late (R182). -/
def vmemory (i : Instr) (e : BitVec 2) (g b : Reg) (al : Nat) (s : State) : Out State := s.ordered (vissue i e g b (baseCheck al) s)

/-- A general register named in four bits. -/
def g4 (n : BitVec 4) : Reg := .g (Fin.ofNat 16 n.toNat)

/-! ### The instructions -/

/-- VADD_FP (R286). -/
def execVaddFp (d a b m : BitVec 3) (t : VType) (e : BitVec 2) (s : State) : Out State :=
  vreg2 (.vaddFp d a b m t e) e s
/-- VSUB_FP (R286). -/
def execVsubFp (d a b m : BitVec 3) (t : VType) (e : BitVec 2) (s : State) : Out State :=
  vreg2 (.vsubFp d a b m t e) e s
/-- VMUL_FP (R286). -/
def execVmulFp (d a b m : BitVec 3) (t : VType) (e : BitVec 2) (s : State) : Out State :=
  vreg2 (.vmulFp d a b m t e) e s
/-- VFMA (R286). -/
def execVfma (d a b c m : BitVec 3) (t : VType) (e : BitVec 2) (s : State) : Out State :=
  vreg2 (.vfma d a b c m t e) e s
/-- VFMS (R286). -/
def execVfms (d a b c m : BitVec 3) (t : VType) (e : BitVec 2) (s : State) : Out State :=
  vreg2 (.vfms d a b c m t e) e s
/-- VMIN_FP (R286). -/
def execVminFp (d a b m : BitVec 3) (t : VType) (e : BitVec 2) (s : State) : Out State :=
  vreg2 (.vminFp d a b m t e) e s
/-- VMAX_FP (R286). -/
def execVmaxFp (d a b m : BitVec 3) (t : VType) (e : BitVec 2) (s : State) : Out State :=
  vreg2 (.vmaxFp d a b m t e) e s
/-- VABS_FP (R286). -/
def execVabsFp (d a m : BitVec 3) (t : VType) (e : BitVec 2) (s : State) : Out State :=
  vreg2 (.vabsFp d a m t e) e s
/-- VNEG_FP (R286). -/
def execVnegFp (d a m : BitVec 3) (t : VType) (e : BitVec 2) (s : State) : Out State :=
  vreg2 (.vnegFp d a m t e) e s
/-- VDIV (R286). -/
def execVdiv (d a b m : BitVec 3) (t : VType) (e : BitVec 2) (s : State) : Out State :=
  vreg2 (.vdiv d a b m t e) e s
/-- VSQRT (R286). -/
def execVsqrt (d a m : BitVec 3) (t : VType) (e : BitVec 2) (s : State) : Out State :=
  vreg2 (.vsqrt d a m t e) e s
/-- VRCP (R287). -/
def execVrcp (d a m : BitVec 3) (t : VType) (e : BitVec 2) (s : State) : Out State :=
  vreg2 (.vrcp d a m t e) e s
/-- VRSQ (R287). -/
def execVrsq (d a m : BitVec 3) (t : VType) (e : BitVec 2) (s : State) : Out State :=
  vreg2 (.vrsq d a m t e) e s
/-- VEXP2 (R287). -/
def execVexp2 (d a m : BitVec 3) (t : VType) (e : BitVec 2) (s : State) : Out State :=
  vreg2 (.vexp2 d a m t e) e s
/-- VLOG2 (R287). -/
def execVlog2 (d a m : BitVec 3) (t : VType) (e : BitVec 2) (s : State) : Out State :=
  vreg2 (.vlog2 d a m t e) e s
/-- VCVT (R288). -/
def execVcvt (d a : BitVec 3) (q : VType) (m : BitVec 3) (t : VType) (e : BitVec 2) (s : State) : Out State :=
  vreg2 (.vcvt d a q m t e) e s
/-- VCMP_FP (R290). -/
def execVcmpFp (k a b m r : BitVec 3) (t : VType) (e : BitVec 2) (s : State) : Out State :=
  vreg2 (.vcmpFp k a b m r t e) e s
/-- VRED_FP (R291). -/
def execVredFp (d a m : BitVec 3) (o : BitVec 2) (t : VType) (e : BitVec 2) (s : State) : Out State :=
  vreg2 (.vredFp d a m o t e) e s
/-- VADD_INT (R289). -/
def execVaddInt (d a b m : BitVec 3) (t : VType) (e : BitVec 2) (s : State) : Out State :=
  vreg2 (.vaddInt d a b m t e) e s
/-- VSUB_INT (R289). -/
def execVsubInt (d a b m : BitVec 3) (t : VType) (e : BitVec 2) (s : State) : Out State :=
  vreg2 (.vsubInt d a b m t e) e s
/-- VMUL_INT (R289). -/
def execVmulInt (d a b m : BitVec 3) (t : VType) (e : BitVec 2) (s : State) : Out State :=
  vreg2 (.vmulInt d a b m t e) e s
/-- VMIN_INT (R289). -/
def execVminInt (d a b m : BitVec 3) (t : VType) (e : BitVec 2) (s : State) : Out State :=
  vreg2 (.vminInt d a b m t e) e s
/-- VMAX_INT (R289). -/
def execVmaxInt (d a b m : BitVec 3) (t : VType) (e : BitVec 2) (s : State) : Out State :=
  vreg2 (.vmaxInt d a b m t e) e s
/-- VABS_INT (R289). -/
def execVabsInt (d a m : BitVec 3) (t : VType) (e : BitVec 2) (s : State) : Out State :=
  vreg2 (.vabsInt d a m t e) e s
/-- VNEG_INT (R289). -/
def execVnegInt (d a m : BitVec 3) (t : VType) (e : BitVec 2) (s : State) : Out State :=
  vreg2 (.vnegInt d a m t e) e s
/-- VAND (R289). -/
def execVand (d a b m : BitVec 3) (t : VType) (e : BitVec 2) (s : State) : Out State :=
  vreg2 (.vand d a b m t e) e s
/-- VOR (R289). -/
def execVor (d a b m : BitVec 3) (t : VType) (e : BitVec 2) (s : State) : Out State :=
  vreg2 (.vor d a b m t e) e s
/-- VXOR (R289). -/
def execVxor (d a b m : BitVec 3) (t : VType) (e : BitVec 2) (s : State) : Out State :=
  vreg2 (.vxor d a b m t e) e s
/-- VANDN (R289). -/
def execVandn (d a b m : BitVec 3) (t : VType) (e : BitVec 2) (s : State) : Out State :=
  vreg2 (.vandn d a b m t e) e s
/-- VSHL (R289). -/
def execVshl (d a b m : BitVec 3) (t : VType) (e : BitVec 2) (s : State) : Out State :=
  vreg2 (.vshl d a b m t e) e s
/-- VSHR (R289). -/
def execVshr (d a b m : BitVec 3) (t : VType) (e : BitVec 2) (s : State) : Out State :=
  vreg2 (.vshr d a b m t e) e s
/-- VSHA (R289). -/
def execVsha (d a b m : BitVec 3) (t : VType) (e : BitVec 2) (s : State) : Out State :=
  vreg2 (.vsha d a b m t e) e s
/-- VCMP_INT (R290). -/
def execVcmpInt (k a b m r : BitVec 3) (t : VType) (e : BitVec 2) (s : State) : Out State :=
  vreg2 (.vcmpInt k a b m r t e) e s
/-- VRED_INT (R291). -/
def execVredInt (d a m : BitVec 3) (o : BitVec 2) (t : VType) (e : BitVec 2) (s : State) : Out State :=
  vreg2 (.vredInt d a m o t e) e s
/-- VSEL (R292). -/
def execVsel (d a b m : BitVec 3) (t : VType) (e : BitVec 2) (s : State) : Out State :=
  vreg2 (.vsel d a b m t e) e s
/-- VPERM (R292). -/
def execVperm (d a b m : BitVec 3) (t : VType) (e : BitVec 2) (s : State) : Out State :=
  vreg2 (.vperm d a b m t e) e s
/-- VSLUP (R292). -/
def execVslup (d a b m : BitVec 3) (t : VType) (e : BitVec 2) (s : State) : Out State :=
  vreg2 (.vslup d a b m t e) e s
/-- VSLDN (R292). -/
def execVsldn (d a b m : BitVec 3) (t : VType) (e : BitVec 2) (s : State) : Out State :=
  vreg2 (.vsldn d a b m t e) e s
/-- VIOTA (R292). -/
def execViota (d m : BitVec 3) (t : VType) (e : BitVec 2) (s : State) : Out State :=
  vreg2 (.viota d m t e) e s
/-- VPOPK (R292). -/
def execVpopk (d m : BitVec 3) (t : VType) (e : BitVec 2) (s : State) : Out State :=
  vreg2 (.vpopk d m t e) e s
/-- VLD (R294). -/
def execVld (d : BitVec 3) (g : Reg) (m : BitVec 3) (t : VType) (e : BitVec 2) (s : State) : Out State :=
  vmemory (.vld d g m t e) e g .zr 256 s
/-- VST (R294). -/
def execVst (d : BitVec 3) (g : Reg) (m : BitVec 3) (t : VType) (e : BitVec 2) (s : State) : Out State :=
  vmemory (.vst d g m t e) e g .zr 256 s
/-- VLDS (R294). -/
def execVlds (d : BitVec 3) (g : Reg) (q : BitVec 4) (m : BitVec 3) (t : VType) (e : BitVec 2) (s : State) : Out State :=
  vmemory (.vlds d g q m t e) e g (g4 q) t.bytes s
/-- VSTS (R294). -/
def execVsts (d : BitVec 3) (g : Reg) (q : BitVec 4) (m : BitVec 3) (t : VType) (e : BitVec 2) (s : State) : Out State :=
  vmemory (.vsts d g q m t e) e g (g4 q) t.bytes s
/-- VGATH (R294). -/
def execVgath (d : BitVec 3) (g : Reg) (i m : BitVec 3) (t : VType) (e : BitVec 2) (s : State) : Out State :=
  vmemory (.vgath d g i m t e) e g .zr t.bytes s
/-- VSCAT (R294). -/
def execVscat (d : BitVec 3) (g : Reg) (i m : BitVec 3) (t : VType) (e : BitVec 2) (s : State) : Out State :=
  vmemory (.vscat d g i m t e) e g .zr t.bytes s
/-- VLDK (R295). -/
def execVldk (k : BitVec 3) (g : Reg) (e : BitVec 2) (s : State) : Out State :=
  vmemory (.vldk k g e) e g .zr 8 s
/-- VSTK (R295). -/
def execVstk (k : BitVec 3) (g : Reg) (e : BitVec 2) (s : State) : Out State :=
  vmemory (.vstk k g e) e g .zr 8 s
/-- VBCST (R296). -/
def execVbcst (d : BitVec 3) (g : Reg) (m : BitVec 3) (t : VType) (e : BitVec 2) (s : State) : Out State :=
  vissue (.vbcst d g m t e) e g .zr noCheck s
/-- VINS (R296). A port that leads nowhere ranks below an element number that is out of range (R214, R215). -/
def execVins (d : BitVec 3) (g : Reg) (b : BitVec 4) (t : VType) (e : BitVec 2) (s : State) : Out State :=
  let own : Out State := vissue (.vins d g b t e) e g (g4 b) (elementCheck t) s
  if s.badPort g then
    match s.lateReg (g4 b) with
    | some n => s.waitFor (.operand n)
    | none => match elementCheck t s 0 (s.plain (g4 b)) with
      | some (c, v) => s.raise c v
      | none => own
  else own
/-- VEXT (R297). -/
def execVext (d : BitVec 3) (b : BitVec 4) (t : VType) (e : BitVec 2) (s : State) : Out State :=
  vissue (.vext d b t e) e .zr (g4 b) (elementCheck t) s
/-- VSETK (R298). -/
def execVsetk (k : BitVec 3) (g : Reg) (e : BitVec 2) (s : State) : Out State :=
  vissue (.vsetk k g e) e g .zr noCheck s
/-- VMOVK (R298). -/
def execVmovk (k q : BitVec 3) (e : BitVec 2) (s : State) : Out State :=
  vreg2 (.vmovk k q e) e s

end Sys2Proof.Machine
end

