-- ==== Sys2Proof/Machine/Matrix.lean ====
section
/-! DEFINITION. The matrix siding (major 0x3C and its steps; R314 to R330): configuration and plane list, the commands and
their queues, k-steps with the arithmetic of R272 to R277, overtaking, records and faults. -/

namespace Sys2Proof.Machine

open Sys2Proof

/-! ### X instructions (R55) -/

/-- An X instruction: on a core without X it carries its thread to one that has it, or raises EXT_ABSENT. -/
def State.onX (s : State) (i : Instr) (k : Out State) : Out State :=
  if hasX s.here then k
  else
    match s.xTarget s.here with
    | none => s.raise .extAbsent (wordOf i)
    | some tgt => s.travel i (wordOf i) tgt 0xFFFF true false

/-! ### Operand fields (R319 to R321) -/

def mxRows (a : Word) : Nat := bits a 0 6 + 1
def mxRow (a : Word) : Nat := bits a 6 6
def mxBank (a : Word) : Nat := bits a 12 2
def mxPlanes (a : Word) : Nat := bits a 14 4 + 1
def mxStride (a : Word) : Nat := bits a 20 16 * 16

/-- Element size of a matrix format: BF16 two bytes, DM8 and INT8 one. -/
def mxSize (fmt : Nat) : Nat := if fmt = 2 then 2 else 1

/-- n bytes from an address lie in a core's scratchpad. -/
def padSpan (core : Nat) (x : Word) (n : Nat) : Bool :=
  isPad x && bits x 31 32 == 0 && bits x 19 12 == core && decide (bits x 0 19 + n ≤ 2 ^ 19)

/-- The start of row i. -/
def mxAt (b : Word) (stride i : Nat) : Word := b + BitVec.ofNat 64 (stride * i)

/-- Every row of n bytes lies in a core's scratchpad. -/
def rowsIn (core : Nat) (b : Word) (stride m n : Nat) : Bool := (List.range m).all (fun i => padSpan core (mxAt b stride i) n)

/-- A context owns a bank (R315). -/
def State.owns (s : State) (cid bank : Nat) : Bool :=
  let o := (s.core (coreOf cid)).accown.toNat / 16 ^ bank % 16
  o != 0 && o == ctxOf cid

/-- The checks of a queued command of the running context (R319 to R321): MMA 2, MACP 3, MCLR 4. -/
def State.mxCheck (s : State) (code : Nat) (a b : Word) : Option (Cause × Word) :=
  let m := s.th.mat
  let past := decide (64 < mxRow a + mxRows a)
  let unowned := !s.owns s.cur (mxBank a)
  if code = 4 then
    if bits a 14 50 != 0 || past || unowned then some (.badAddress, a) else none
  else if bits b 0 4 != 0 then some (.misaligned, b)
  else if code = 2 then
    let p := mxPlanes a
    let ps := m.planes.take p
    let n := 64 * p * mxSize m.fmt + (if m.sa then 2 * p else 0)
    if bits a 36 28 != 0 || past || unowned || decide (m.planes.length < p)
        || ps.any (fun q => q.1 != m.fmt || q.2.1 != m.sw) then some (.badAddress, a)
    else if !rowsIn s.here b (mxStride a) (mxRows a) n || s.retainedFor s.cur s.here then some (.badAddress, b)
    else none
  else
    let cvt := bits a 15 2
    let n := 64 * (if cvt = 0 then 4 else if cvt = 1 then 2 else 1) + (if cvt = 2 then 2 else 0)
    if cvt = 3 || (cvt != 0 && m.fmt == 1) || (bit a 14 && cvt == 2) || past || unowned || bits a 36 28 != 0 || bits a 17 3 != 0 then
      some (.badAddress, a)
    else if !rowsIn s.here b (mxStride a) (mxRows a) n || s.retainedFor s.cur s.here then some (.badAddress, b)
    else none

/-! ### Captures and queues (R322, R324) -/

/-- The captured command of the running context. -/
def State.mxCapture (s : State) (code : Nat) (a b : Word) : MCmd :=
  let m := s.th.mat
  ⟨s.cur, s.seqNow, s.stamp, code, a, b, m.fmt, m.sa, m.sw,
    if code = 2 then (m.planes.take (mxPlanes a)).map (fun q => (q.2.2.1, q.2.2.2)) else [], m.prio, 0, 0, 0, 0, 0, 0⟩

/-- Removes the captured planes when POP is set; counts a place in the order of performance. -/
def State.mxPop (s : State) (code : Nat) (a : Word) : State :=
  let s := if code = 2 && bit a 19 then
      s.withTh (fun t => { t with mat := { t.mat with planes := t.mat.planes.drop (mxPlanes a) } })
    else s
  s.tick

/-- Commands in the queue of a priority. -/
def Core.queued (c : Core) (prio : Nat) : Nat := (c.mat.filter (fun m => m.prio == prio)).length

/-- A packet may enter a queue: it has a place, and no staged command waits for one (R322, R324). -/
def Core.mxRoom (c : Core) (prio : Nat) : Bool :=
  decide (c.queued prio < Config.mqueueMax) && c.staged.all (fun m => m.prio != prio)

/-- A queued matrix instruction at stage 8. -/
def mxQueued (i : Instr) (code : Nat) (a b : Reg) (e : BitVec 2) (s : State) : Out State :=
  s.onX i (s.withOps a b .zr (fun s' x y =>
    match s.mxCheck code x y with
    | some (c, v) => s.raise c v
    | none =>
      if (s.core s.here).mxRoom s.th.mat.prio then
        s.withEnergy s' e (fun s' =>
          let m := s.mxCapture code x y
          s.done i ((s'.mxPop code x).onCore s.here (fun c => { c with mat := c.mat ++ [{ m with age := c.cyc }] })))
      else s.waitFor (.mspace s.th.mat.prio)))

/-- An unqueued matrix instruction at stage 8 (R316): its check, its energy, its effect. -/
def mxNow (i : Instr) (a b : Reg) (e : BitVec 2) (check : State → Word → Word → Option (Cause × Word))
    (f : State → Word → Word → State) (s : State) : Out State :=
  s.onX i (s.withOps a b .zr (fun s' x y =>
    match check s x y with
    | some (c, v) => s.raise c v
    | none => s.withEnergy s' e (fun s' => s.done i (f s' x y))))

/-- Changes the matrix configuration of the running thread, which is then live. -/
def State.onMat (s : State) (f : MatCfg → MatCfg) : State := s.withTh (fun t => { t with mat := { f t.mat with live := true } })

/-! ### The instructions (R317 to R323) -/

/-- MCFG's check (R317). -/
def mcfgCheck (_ : State) (a _ : Word) : Option (Cause × Word) :=
  if bits a 4 60 != 0 || bits a 0 2 == 3 || (bits a 2 2 != 0 && bits a 0 2 != 0) then some (.badAddress, a) else none

/-- MCFG (R317). -/
def execMcfg (a : Reg) (e : BitVec 2) (s : State) : Out State :=
  mxNow (.mcfg a e) a .zr e mcfgCheck
    (fun s x _ => s.onMat (fun m => { m with fmt := bits x 0 2, sa := bit x 2, sw := bit x 3 })) s

/-- MWL's check (R318). -/
def mwlCheck (s : State) (a b : Word) : Option (Cause × Word) :=
  let m := s.th.mat
  if bits a 0 6 != 0 then some (.misaligned, a)
  else if !padSpan s.here a (4096 * mxSize m.fmt) || decide (16 ≤ m.planes.length) then some (.badAddress, a)
  else if (if m.sw then !padSpan s.here b 128 else b != 0) then some (.badAddress, b)
  else none

/-- MWL (R318). -/
def execMwl (a b : Reg) (e : BitVec 2) (s : State) : Out State :=
  mxNow (.mwl a b e) a b e mwlCheck
    (fun s x y => s.onMat (fun m => { m with planes := m.planes ++ [(m.fmt, m.sw, x, y)] })) s

/-- MMA (R319). -/
def execMma (a b : Reg) (e : BitVec 2) (s : State) : Out State := mxQueued (.mma a b e) 2 a b e s
/-- MACP (R320). -/
def execMacp (a b : Reg) (e : BitVec 2) (s : State) : Out State := mxQueued (.macp a b e) 3 a b e s
/-- MCLR (R321). -/
def execMclr (a : Reg) (e : BitVec 2) (s : State) : Out State := mxQueued (.mclr a e) 4 a .zr e s

/-- The operand of a staged command (R322). -/
def stagedA (a : Word) : Word := BitVec.ofNat 64 (bits a 0 60)

/-- MSTAGE's check: any failure of the command's own checks is a BAD_ADDRESS (R322). -/
def mstageCheck (s : State) (a b : Word) : Option (Cause × Word) :=
  let code := bits a 60 4
  if code < 2 || 4 < code || s.th.mat.slot.isSome then some (.badAddress, a)
  else (s.mxCheck code (stagedA a) b).map (fun e => (.badAddress, e.2))

/-- MSTAGE (R322). -/
def execMstage (a b : Reg) (e : BitVec 2) (s : State) : Out State :=
  mxNow (.mstage a b e) a b e mstageCheck
    (fun t x y =>
      let code := bits x 60 4
      let m := s.mxCapture code (stagedA x) y
      (t.mxPop code (stagedA x)).onMat (fun c => { c with slot := some m })) s

/-- MPRI (R317). -/
def execMpri (e p : BitVec 2) (s : State) : Out State :=
  mxNow (.mpri e p) .zr .zr e noCheck (fun s _ _ => s.onMat (fun m => { m with prio := p.toNat })) s

/-- A cancelled command's record (R323). -/
def State.mxCancelled (s : State) (m : MCmd) : State := s.mqRecord { m with status := 1 }

/-- Cancels the matrix commands of a context (R323): a running one is marked and stops at its next boundary. -/
def State.mxCancel (s : State) (cid : Nat) : State :=
  let c := s.core (coreOf cid)
  let mine (m : MCmd) : Bool := m.cid == cid
  let slot := ((s.ctx cid).th.mat.slot.toList).map (fun m => { m with cid := cid })
  let gone := c.mat.filter mine ++ c.suspended.filter mine ++ c.staged.filter mine
    ++ (c.copies.filterMap (fun v => v.staged)).filter mine ++ slot
  let s := s.onCore (coreOf cid) (fun c =>
    { c with
      mat := c.mat.filter (fun m => !mine m)
      suspended := c.suspended.filter (fun m => !mine m)
      staged := c.staged.filter (fun m => !mine m)
      copies := (c.copies.filter (fun v => v.status == 0 || !(v.staged.any mine))).map (fun v =>
        if v.staged.any mine then { v with staged := none } else v)
      running := c.running.map (fun r => if mine r.cmd && !r.finished then { r with cmd := { r.cmd with status := 1 } } else r) })
  let s := s.onCtx cid (fun x => { x with th := { x.th with mat := { x.th.mat with slot := none } } })
  gone.foldl (fun s m => s.mxCancelled m) s

/-- MCAN (R323). -/
def execMcan (a : Reg) (e : BitVec 2) (s : State) : Out State :=
  mxNow (.mcan a e) a .zr e (fun _ x _ => if bits x 1 63 != 0 then some (.badAddress, x) else none)
    (fun t x _ =>
      let t := t.mxCancel s.cur
      if bit x 0 then t.withTh (fun h => { h with mat := { h.mat with planes := [] } }) else t) s

/-! ### Reading operands and accumulators -/

/-- Loads spans of a core's scratchpad in order: the corrected state, or the first address that cannot be read. -/
def State.readAll (s : State) (core : Nat) : List (Word × Nat) → Except (State × Word) State
  | [] => .ok s
  | (x, n) :: rest =>
    match (if (s.core core).powered then s.load x.toNat n else none) with
    | none => .error (s, x)
    | some (_, s) => State.readAll s core rest

/-- Element k of size n bytes from an address. -/
def State.elAt (s : State) (x : Word) (n k : Nat) : Nat := s.mem.nat (x.toNat + k * n) n

/-- A scale byte. -/
def State.scaleAt (s : State) (x : Word) (k : Nat) : Int := signedOf (s.mem.nat (x.toNat + k) 1) 8

/-- The key of accumulator element n of a row of a bank. -/
def accKey (bank row n : Nat) : Nat := bank * 4096 + row * 64 + n

/-! ### One k-step (R272 to R277, R319) -/

/-- The spans that k-step j of an MMA reads: its plane, the plane's scales, and its part of each row. -/
def MCmd.spans (c : MCmd) (j : Nat) : List (Word × Nat) :=
  let es := mxSize c.fmt
  let p := mxPlanes c.a
  let pl := c.planes.getD j (0, 0)
  [(pl.1, 4096 * es)] ++ (if c.sw then [(pl.2, 128)] else [])
    ++ (List.range (mxRows c.a)).flatMap (fun i =>
      let x := mxAt c.b (mxStride c.a) i
      [(x + BitVec.ofNat 64 (64 * j * es), 64 * es)]
        ++ (if c.sa then [(x + BitVec.ofNat 64 (64 * p * es + 2 * j), 2)] else []))

/-- What one element of a k-step comes to: the new accumulator value, and whether it saturated, became a NaN, and how
many of its products overflowed. -/
structure KOut where
  v : Nat
  sat : Bool
  nan : Bool
  bso : Nat

/-- The 64 products and their sum for row i and column n of k-step j, applied to the accumulator value `old`. -/
def State.kElem (s : State) (core : Nat) (c : MCmd) (j i n old : Nat) : KOut :=
  let es := mxSize c.fmt
  let p := mxPlanes c.a
  let pl := c.planes.getD j (0, 0)
  let x := mxAt c.b (mxStride c.a) i
  let xs := x + BitVec.ofNat 64 (64 * j * es)
  let q := x + BitVec.ofNat 64 (64 * p * es + 2 * j)
  let fresh := bit c.a 18 && j == 0
  let xk (k : Nat) : Nat := s.elAt xs es k
  let wk (k : Nat) : Nat := s.elAt pl.1 es (64 * k + n)
  if c.fmt = 1 then
    let t := (List.range 64).foldl (fun (z : Int) k => z + signedOf (xk k) 8 * signedOf (wk k) 8) 0
    let r := if fresh then satInt32 t else satInt32 (signedOf old 32 + t)
    ⟨r.1, r.2, false, 0⟩
  else
    let sc (k : Nat) : Int := (if c.sa then s.scaleAt q (k / 32) else 0)
    let ws (k : Nat) : Int := (if c.sw then s.scaleAt pl.2 (2 * n + k / 32) else 0)
    let prod (k : Nat) : Nat × Bool :=
      let cn := nan32 core (64 * j + k)
      if c.fmt = 2 then bf16Mul cn (xk k) (wk k) else dm8Mul cn (dm8Value (xk k) (sc k)) (dm8Value (wk k) (ws k))
    let ps := (List.range 64).map prod
    let t := (fp32.tree 0 (fun lo => nan32 core (64 * j + lo)) 6 0 (ps.map (fun r => r.1))).1
    let v := if fresh then t else fp32.join (nan32 core (64 * j)) old t
    ⟨v, false, !isNan32 old && isNan32 v, (ps.filter (fun r => r.2)).length⟩

/-- The result of a k-step: the accumulators, and the counts it commits. -/
structure KSum where
  acc : Tab Word32
  sat : Nat
  nan : Nat
  bso : Nat

/-- The elements of a k-step, row by row. -/
def State.kStep (s : State) (core : Nat) (c : MCmd) (j : Nat) : KSum :=
  (List.range (mxRows c.a)).foldl (fun z i =>
    (List.range 64).foldl (fun (z : KSum) n =>
      let key := accKey (mxBank c.a) (mxRow c.a + i) n
      let r := s.kElem core c j i n (z.acc.get key 0).toNat
      ⟨z.acc.set key (BitVec.ofNat 32 r.v), z.sat + (if r.sat then 1 else 0), z.nan + (if r.nan then 1 else 0), z.bso + r.bso⟩) z)
    ⟨(s.core core).acc, 0, 0, 0⟩

/-- The accumulator keys of the rows of a command. -/
def MCmd.keys (c : MCmd) : List Nat :=
  (List.range (mxRows c.a * 64)).map (fun k => mxBank c.a * 4096 + mxRow c.a * 64 + k)

/-- The command reads an accumulator element that cannot be corrected. -/
def Core.accBad (k : Core) (c : MCmd) : Bool := k.badAcc.any (fun x => c.keys.contains x)

/-- A k-step's reads, then its results; or the address of what cannot be read, 0 for an accumulator. -/
def State.kTry (s : State) (core : Nat) (c : MCmd) : Except (State × Word) (State × KSum) :=
  match s.readAll core (c.spans c.k) with
  | .error e => .error e
  | .ok s => if !(bit c.a 18 && c.k == 0) && (s.core core).accBad c then .error (s, 0) else .ok (s, s.kStep core c c.k)

/-! ### Counters (R328) -/

/-- A count raised by n, and whether that takes it to a nonzero threshold. -/
def bump (old : BitVec 32) (n thr : Nat) : BitVec 32 × Bool :=
  let v := min (2 ^ 32 - 1) (old.toNat + n)
  (BitVec.ofNat 32 v, thr != 0 && decide (old.toNat < thr) && decide (thr ≤ v))

/-- Gives the owner of an id a pending asynchronous event; a later one of the same cause replaces its DETAIL (R215). -/
def State.pend (s : State) (cid k : Nat) (v : Word) : State :=
  if cid < 65536 then s.onCtx cid (fun c => { c with asyncs := c.asyncs.set k v })
  else
    let g (p : Parked) : Parked := if p.origin == cid then { p with asyncs := p.asyncs.set k v } else p
    let core := coreOf (baseCid cid)
    (s.onCore core (fun c => { c with cache := c.cache.map g })).onDie (dieOf core)
      (fun d => { d with spill := d.spill.map (Spill.map g) })

/-- Commits a k-step's counts (R277, R328). -/
def State.mxCommit (s : State) (cid sat nan bso : Nat) : State :=
  let t := s.owner cid
  let a := bump t.mxsat sat (t.mxthr.toNat % 65536)
  let b := bump t.mxnan nan (t.mxthr.toNat / 2 ^ 16 % 65536)
  let c := bump t.mxbso bso (t.mxthr.toNat / 2 ^ 32 % 65536)
  let s := s.onOwner cid (fun t => { t with mxsat := a.1, mxnan := b.1, mxbso := c.1 })
  let d := (if a.2 then 1 else 0) + (if b.2 then 2 else 0) + (if c.2 then 4 else 0)
  if d = 0 then s else s.pend cid 2 (BitVec.ofNat 64 d)

/-! ### Starting, k-steps, overtaking (R324, R325) -/

/-- Every matrix command of a core that has not completed. -/
def State.mxAll (s : State) (core : Nat) : List MCmd :=
  let c := s.core core
  c.mat ++ c.suspended ++ c.staged ++ c.copies.filterMap (fun v => v.staged)
    ++ (match c.running with | some r => [r.cmd] | none => [])

/-- A command's context still has one that was performed before it: a staged one in the slot of its thread included. -/
def State.mxOlder (s : State) (core : Nat) (m : MCmd) : Bool :=
  (s.mxAll core).any (fun o => o.cid == m.cid && decide (o.ord < m.ord))
    || (match (s.owner m.cid).mat.slot with
      | some o => decide (o.ord < m.ord)
      | none => false)

/-- Effective priority (R324). -/
def MCmd.eff (m : MCmd) (cyc : Nat) : Nat := min 3 (m.prio + (cyc - m.age) / 4096)

/-- The better of two candidates: the higher effective priority, then the earlier entry. -/
def mxBetter (cyc : Nat) (best : Option MCmd) (m : MCmd) : Option MCmd :=
  match best with
  | none => some m
  | some b => if b.eff cyc < m.eff cyc || (b.eff cyc == m.eff cyc && decide (m.age < b.age)) then some m else some b

/-- A core stopped by a gang stop or by its debug module: its sidings only finish what they have started (R229, R393). -/
def Core.held (c : Core) : Bool := c.gangStopped || c.dbg.stopped

/-- The eligible commands that wait: suspended, or queued and free to start; none while the clock stands (R389). -/
def State.mxReady (s : State) (core : Nat) : List MCmd :=
  let c := s.core core
  if s.clockStops core then [] else ((if c.held then [] else c.mat) ++ c.suspended).filter (fun m => !s.mxOlder core m)

/-- MATRIX_START (R324): the free siding starts or resumes the eligible command of highest effective priority. -/
def execMatrixStart (core : Nat) (s : State) : Out State :=
  let c := s.core core
  if c.running.isSome then .next s
  else
    match (s.mxReady core).foldl (mxBetter c.cyc) none with
    | none => .next s
    | some m =>
      .next (s.setCore core { c with
        mat := c.mat.filter (fun x => x != m)
        suspended := c.suspended.filter (fun x => x != m)
        running := some ⟨m, false, false⟩ })

/-- PLANE_LOAD_DONE (R331): the next plane of a running MMA is in the shadow. -/
def execPlaneLoadDone (core : Nat) (s : State) : Out State :=
  match (s.core core).running with
  | none => .next s
  | some r =>
    .next (if r.cmd.code = 2 && !s.clockStops core then s.onCore core (fun c => { c with running := some { r with loaded := true } }) else s)

/-- Another context's command overtakes the running one at a k-step boundary (R325). -/
def State.mxOvertaken (s : State) (core : Nat) (m : MCmd) : Bool :=
  let c := s.core core
  decide (c.suspended.length < 2)
    && (s.mxReady core).any (fun o => o.cid != m.cid && decide (m.eff c.cyc < o.eff c.cyc))

/-- KSTEP_DONE (R319, R325): a k-step's results and counts are committed; the command then goes on, ends, or is
suspended for one of higher priority. -/
def execKstepDone (core : Nat) (s : State) : Out State :=
  match (s.core core).running with
  | none => .next s
  | some r =>
    if r.cmd.code != 2 || !r.loaded || r.finished || s.clockStops core then .next s
    else
      match s.kTry core r.cmd with
      | .error _ => .next s
      | .ok (s, z) =>
        let m := { r.cmd with k := r.cmd.k + 1, sat := r.cmd.sat + z.sat, nan := r.cmd.nan + z.nan, bso := r.cmd.bso + z.bso }
        let s := (s.onCore core (fun c => { c with acc := z.acc, badAcc := c.badAcc.filter (fun x => !m.keys.contains x) })).mxCommit
          m.cid z.sat z.nan z.bso
        if m.status = 1 || mxPlanes m.a ≤ m.k then .next (s.onCore core (fun c => { c with running := some ⟨m, false, true⟩ }))
        else if s.mxOvertaken core m then
          .next (s.onCore core (fun c => { c with running := none, suspended := c.suspended ++ [m] }))
        else .next (s.onCore core (fun c => { c with running := some ⟨m, false, false⟩ }))

/-! ### MACP and MCLR (R320, R321) -/

/-- The bytes that MACP writes for a row, and its saturations. -/
def macpRow (cvt : Nat) (vs : List Nat) : List Byte × Nat :=
  if cvt = 0 then (vs.flatMap (fun v => leBytes 4 v), 0)
  else if cvt = 1 then (vs.flatMap (fun v => leBytes 2 (fp32.convert bf16 0 v).1), 0)
  else
    let half (l : List Nat) : Int × List (Nat × Bool) :=
      let fs := l.map fp32.get
      let sc := blockScale fs
      (sc, fs.map (fun f => dm8Of f sc))
    let a := half (vs.take 32)
    let b := half (vs.drop 32)
    let es := a.2 ++ b.2
    (es.map (fun e => BitVec.ofNat 8 e.1) ++ [BitVec.ofInt 8 a.1, BitVec.ofInt 8 b.1], (es.filter (fun e => e.2)).length)

/-- Row i of a bank's rows of a command. -/
def Core.accRow (c : Core) (m : MCmd) (i : Nat) : List Nat :=
  (List.range 64).map (fun n => (c.acc.get (accKey (mxBank m.a) (mxRow m.a + i) n) 0).toNat)

/-- Sets row i of a command's accumulator rows. -/
def Core.setAccRow (c : Core) (m : MCmd) (i : Nat) (vs : List Nat) : Core :=
  { c with acc := (List.range 64).foldl (fun t n => t.set (accKey (mxBank m.a) (mxRow m.a + i) n) (BitVec.ofNat 32 (vs.getD n 0))) c.acc }

/-- MACP row by row: the state and its saturations, or where it stopped. -/
def State.macp (s : State) (core : Nat) (m : MCmd) : List Nat → Nat → Except (State × Word) (State × Nat)
  | [], n => .ok (s, n)
  | i :: rest, n =>
    let cvt := bits m.a 15 2
    let size := if cvt = 0 then 4 else 2
    let x := mxAt m.b (mxStride m.a) i
    if bit m.a 14 then
      match s.readAll core [(x, 64 * size)] with
      | .error e => .error e
      | .ok s =>
        let vs := (List.range 64).map (fun k => let v := s.elAt x size k; if cvt = 0 then v else bf16To32 v)
        State.macp (s.onCore core (fun c => c.setAccRow m i vs)) core m rest n
    else
      let r := macpRow cvt ((s.core core).accRow m i)
      match (if (s.core core).powered then s.store x.toNat r.1 else none) with
      | none => .error (s, x)
      | some s => State.macp s core m rest (n + r.2)

/-- What a MACP or MCLR does as a whole: its state and saturations, or where it stopped. -/
def State.mxWhole (s : State) (core : Nat) (m : MCmd) : Except (State × Word) (State × Nat) :=
  let clear (s : State) : State := s.onCore core (fun c => { c with badAcc := c.badAcc.filter (fun x => !m.keys.contains x) })
  if m.code = 4 then
    .ok (clear (s.onCore core (fun c => (List.range (mxRows m.a)).foldl (fun c i => c.setAccRow m i []) c)), 0)
  else if m.code = 3 then
    if !(bit m.a 14) && (s.core core).accBad m then .error (s, 0)
    else
      match s.macp core m (List.range (mxRows m.a)) 0 with
      | .ok (s, n) => .ok (if bit m.a 14 then clear s else s, n)
      | .error e => .error e
  else .ok (s, 0)

/-- A command whose writes are done frees the siding and delivers its record once its thread's lane has a place; until then it
holds the siding (R326). -/
def State.mxDone (s : State) (core : Nat) (m : MCmd) : State :=
  if Config.laneMax ≤ (s.owner m.cid).mq.length then s.onCore core (fun c => { c with running := some ⟨m, false, true⟩ })
  else (s.onCore core (fun c => { c with running := none })).mqRecord m

/-- MATRIX_COMPLETE (R326): an MMA has ended, or a MACP or MCLR makes its writes, and the command is done. -/
def execMatrixComplete (core : Nat) (s : State) : Out State :=
  match (s.core core).running with
  | none => .next s
  | some r =>
    if s.clockStops core then .next s
    else if r.finished then .next (s.mxDone core r.cmd)
    else if r.cmd.code = 2 then .next s
    else
      match s.mxWhole core r.cmd with
      | .error _ => .next s
      | .ok (s, n) => .next (s.mxDone core { r.cmd with sat := r.cmd.sat + n })

/-- MATRIX_FAULT (R327): the running command meets what cannot be read or written: a late ENGINE_FAULT and a record with
STATUS 0x2. -/
def execMatrixFault (core : Nat) (s : State) : Out State :=
  match (s.core core).running with
  | none => .next s
  | some r =>
    let stop (s : State) (x : Word) : State :=
      (s.mxDone core { r.cmd with status := 2 }).engineFault r.cmd.cid ⟨7, 2, none, r.cmd.seq, x, .mat r.cmd⟩
    if r.finished || s.clockStops core then .next s
    else if r.cmd.code = 2 then
      if !r.loaded then .next s
      else
        match s.kTry core r.cmd with
        | .error (s, x) => .next (stop s x)
        | .ok _ => .next s
    else
      match s.mxWhole core r.cmd with
      | .error (s, x) => .next (stop s x)
      | .ok _ => .next s

/-- STAGED_ENTER (R322): the staged command that became ready first enters its queue when that has a place. -/
def execStagedEnter (core : Nat) (s : State) : Out State :=
  let c := s.core core
  match c.staged with
  | [] => .next s
  | m :: rest =>
    if c.queued m.prio < Config.mqueueMax then
      .next (s.setCore core { c with staged := rest, mat := c.mat ++ [{ m with age := c.cyc }] })
    else .next s

/-- CURRENT_LIMITER_SAMPLE (R391): the die's matrix sidings are held above the limit, until the estimate is below 95 % of
it; only timing changes (R330). -/
def execCurrentLimiterSample (die amps : Nat) (s : State) : Out State :=
  .next (s.onDie die (fun d =>
    { d with holding := if d.limitAmps < amps then true else if amps * 100 < d.limitAmps * 95 then false else d.holding }))

end Sys2Proof.Machine
end

