-- ==== Sys2Proof/Machine/Copy.lean ====
section
/-! DEFINITION. The copy siding (major 0x3D and its steps; R302 to R313): descriptors, the checks of CGO and CGOC, pieces,
records, faults, and what a copy brings to the matrix queues (R322). -/

namespace Sys2Proof.Machine

open Sys2Proof

/-! ### Descriptors (R302, R303) -/

/-- Bytes of an element of a format (R112, R303). -/
def copyBytes (f : Nat) : Nat :=
  match f with
  | 1 | 5 => 2
  | 2 | 6 => 4
  | 3 | 7 => 8
  | _ => 1

/-- The IEEE format of a format code. -/
def copyFmt (f : Nat) : Option Fmt :=
  match f with
  | 1 => some bf16
  | 2 => some fp32
  | _ => none

def Desc.bytes (d : Desc) : Nat := copyBytes d.fmt
def Desc.dim (d : Desc) (j : Nat) : Nat := d.size.get j 1
def Desc.step (d : Desc) (j : Nat) : Word := d.stride.get j 0

/-- The number of elements. -/
def Desc.count (d : Desc) : Nat := (List.range 12).foldl (fun n j => n * d.dim j) 1

/-- The address of element e in canonical order. -/
def Desc.addr (d : Desc) (e : Nat) : Word :=
  ((List.range 12).foldl (fun (x : Word × Nat) j =>
    (x.1 + BitVec.ofNat 64 (x.2 % d.dim j) * d.step j, x.2 / d.dim j)) (d.base, e)).1

/-- The address of the scale byte of element e. -/
def Desc.scale (d : Desc) (e : Nat) : Word :=
  d.sbase.getD 0 + BitVec.ofNat 64 (e % d.dim 0 / 32) + BitVec.ofNat 64 (e / d.dim 0) * d.srow

/-- A descriptor as a CGO copies it: a derived scale row stride takes its value (R304). -/
def Desc.taken (d : Desc) : Desc :=
  if d.sbase.isSome && d.srow == 0 then { d with srow := BitVec.ofNat 64 ((d.dim 0 + 31) / 32) } else d

/-- The cores of a multicast rectangle, lowest first. -/
def rectangle (a b : Nat) : List Nat :=
  (List.range 512).filterMap (fun k =>
    let c := dieOf a * 512 + k
    if isCore c && decide (min (xOf a) (xOf b) ≤ xOf c) && decide (xOf c ≤ max (xOf a) (xOf b))
      && decide (min (yOf a) (yOf b) ≤ yOf c) && decide (yOf c ≤ max (yOf a) (yOf b)) then some c else none)

/-- The cores that a destination is written to. -/
def Desc.cores (d : Desc) : Option (List Nat) := d.mcast.map (fun m => rectangle m.1.toNat m.2.toNat)

/-! ### CSETB, CSETD, CSETS (R304) -/

/-- A copy instruction at stage 8 that only changes descriptor n. -/
def copySet (i : Instr) (e n : BitVec 2) (a b : Reg) (check : Option Desc → Word → Word → Option (Cause × Word))
    (f : Option Desc → Word → Word → Desc) (s : State) : Out State :=
  let d := s.th.descs.find n.toNat
  s.withOps a b .zr (fun s' x y =>
    match check d x y with
    | some (c, v) => s.raise c v
    | none => s.withEnergy s' e (fun s' => s.done i (s'.withTh (fun t => { t with descs := t.descs.set n.toNat (f d x y) }))))

/-- A descriptor that nothing has set. -/
def Desc.unset : Desc := ⟨0, 0, 0, [], [], none, 0, none⟩

/-- CSETB (R304). -/
def execCsetb (a b : Reg) (e n : BitVec 2) (f : BitVec 4) (s : State) : Out State :=
  copySet (.csetb a b e n f) e n a b
    (fun _ _ y => if y != 0 && !(bit y 63 && bits y 17 46 == 0) then some (.badAddress, y) else none)
    (fun _ x y => { Desc.unset with base := x, dev := BitVec.ofNat 17 (bits y 0 17), fmt := f.toNat }) s

/-- CSETD (R304). -/
def execCsetd (a b : Reg) (e n : BitVec 2) (k : BitVec 4) (s : State) : Out State :=
  copySet (.csetd a b e n k) e n a b
    (fun d x _ => if d.isNone || x == 0 || decide (2 ^ 32 ≤ x.toNat) then some (.badAddress, x) else none)
    (fun d x y => let d := d.getD .unset
      { d with size := d.size.set k.toNat x.toNat, stride := d.stride.set k.toNat y }) s

/-- CSETS of a scale region (R304). -/
def execCsetsScale (a b : Reg) (e n : BitVec 2) (s : State) : Out State :=
  copySet (.csetsScale a b e n) e n a b
    (fun d x _ => if d.isNone then some (.badAddress, x) else none)
    (fun d x y => let d := d.getD .unset
      if x = 0 then { d with sbase := none, srow := 0 } else { d with sbase := some x, srow := y }) s

/-- The corners of a multicast operand that R304 refuses. -/
def State.badCorners (s : State) (x : Word) : Bool :=
  let p := bits x 0 12
  let q := bits x 16 12
  bits x 28 35 != 0 || bits x 12 4 != 0 || !isCore p || !isCore q || dieOf p != dieOf q
    || s.partOf (dieOf p) != s.partOf (dieOf s.here)

/-- CSETS of a multicast (R304). -/
def execCsetsMcast (a b : Reg) (e n : BitVec 2) (s : State) : Out State :=
  copySet (.csetsMcast a b e n) e n a b
    (fun d x y =>
      if y != 0 then some (.badAddress, y)
      else if d.isNone || (if bit x 63 then s.badCorners x else x != 0) then some (.badAddress, x)
      else none)
    (fun d x _ => let d := d.getD .unset
      { d with mcast := if bit x 63 then some (BitVec.ofNat 12 (bits x 0 12), BitVec.ofNat 12 (bits x 16 12)) else none }) s

/-! ### The checks of CGO and CGOC (R306) -/

/-- The operation accepts a pair of formats (R307). -/
def copyPair (o src dst : Nat) : Bool :=
  match o with
  | 0 => copyBytes src == copyBytes dst
  | 1 => (src == 0 && (dst == 2 || dst == 1)) || (src == 1 && dst == 2) || (src == 2 && dst == 1)
      || ((src == 2 || src == 1) && dst == 0)
  | _ => decide (src ≤ 2) && (dst == 2 || dst == 1)

/-- The first base or stride of a descriptor that is not a multiple of its element size. -/
def Desc.skew (d : Desc) : Option Word :=
  (d.base :: (List.range 12).map d.step).find? (fun v => v.toNat % d.bytes != 0)

/-- A scale region that its descriptor cannot have. -/
def Desc.badScale (d : Desc) : Bool := d.sbase.isSome && (d.fmt != 0 || d.dim 0 % 32 != 0)

/-- The first of some alternatives that is there. -/
def firstOf {α : Type} : List (Option α) → Option α
  | [] => none
  | some x :: _ => some x
  | none :: rest => firstOf rest

/-- A detail when a condition holds. -/
def whenBad (c : Bool) (v : Word) : Option Word := if c then some v else none

/-- A descriptor's check applied to both sides, the source first. -/
def Desc.both (a b : Desc) (f : Desc → Option Word) : Option Word := (f a).or (f b)

/-- The lowest core of a destination's rectangle that is kept for another launch (R59). -/
def State.keptCore (s : State) (d : Desc) : Option Word :=
  ((d.cores.getD []).find? (fun c => s.retainedFor s.cur c)).map (fun c => BitVec.ofNat 64 c)

/-- The checks that make BAD_ADDRESS, in the order of the table of R306. -/
def State.copyBad (s : State) (x : Word) (o : Nat) (a b : Desc) : Option Word :=
  firstOf [
    whenBad (x != 0 && s.badAddr s.cur x) x,
    whenBad (a.count != b.count) (BitVec.ofNat 64 b.count),
    a.both b (fun d => whenBad (decide (2 ^ 40 < d.count)) (BitVec.ofNat 64 d.count)),
    whenBad (!copyPair o a.fmt b.fmt) (BitVec.ofNat 64 (a.fmt * 16 + b.fmt)),
    a.both b (fun d => whenBad d.badScale (d.sbase.getD 0)),
    whenBad (o == 0 && a.sbase.isSome != b.sbase.isSome) ((a.sbase.or b.sbase).getD 0),
    (whenBad a.mcast.isSome a.base).or (whenBad (b.mcast.isSome && !isPad b.base) b.base),
    whenBad (b.mcast.isSome && o == 2) b.base,
    whenBad ((a.dev != 0 && b.dev != 0) || (o == 2 && (a.dev != 0 || b.dev != 0)))
      ((if a.dev != 0 then a.dev else b.dev).zeroExtend 64),
    s.keptCore b]

/-- The checks of CGO and CGOC: MISALIGNED before BAD_ADDRESS; an unset descriptor has no base or strides. -/
def State.copyCheck (s : State) (x : Word) (ds dt o : Nat) (staged : Bool) : Option (Cause × Word) :=
  let a := s.th.descs.find ds
  let b := s.th.descs.find dt
  let skew := firstOf [whenBad (bits x 0 3 != 0) x, a.bind Desc.skew, b.bind Desc.skew]
  match skew with
  | some v => some (.misaligned, v)
  | none =>
    match a, b with
    | none, _ => some (.badAddress, BitVec.ofNat 64 ds)
    | some _, none => some (.badAddress, BitVec.ofNat 64 dt)
    | some a, some b =>
      match s.copyBad x o a b with
      | some v => some (.badAddress, v)
      | none => if staged && s.th.mat.slot.isNone then some (.badAddress, 0) else none

/-- The core has a place for a copy, and the context's lane for its record (R306). -/
def State.copyRoom (s : State) (cid : Nat) : Bool :=
  decide (((s.core (coreOf cid)).copies.filter (fun c => c.status == 0)).length < Config.copyMax)
    && decide ((s.ctx cid).th.cq.length + s.outcp cid < Config.laneMax)

/-- A copy starts (R306). -/
def copyGo (i : Instr) (a b : Reg) (e ds dt : BitVec 2) (o : BitVec 3) (staged : Bool) (s : State) : Out State :=
  s.withOps a b .zr (fun s' x y =>
    match s.copyCheck x ds.toNat dt.toNat o.toNat staged with
    | some (c, v) => s.raise c v
    | none =>
      if s.copyRoom s.cur then
        s.withEnergy s' e (fun s' =>
          let t := s.th
          let m := if staged then t.mat.slot.map (fun m => { m with cid := s.cur }) else none
          let c : CopyCmd :=
            { cid := s.cur, seq := s.seqNow
              src := ((t.descs.find ds.toNat).getD .unset).taken, dst := ((t.descs.find dt.toNat).getD .unset).taken
              op := o.toNat, flag := x, fval := y, staged := m
              first := 0, done := [], sat := 0, status := 0, flagOnly := false, asn := s.asnOf s.cur, id := s.stamp
              scales := [], branches := [], words := [], grants := [], flits := [], closing := none }
          let s' := if staged then s'.withTh (fun t => { t with mat := { t.mat with slot := none } }) else s'
          s.done i (s'.tick.onCore s.here (fun k => { k with copies := k.copies ++ [c] })))
      else s.waitFor .cspace)

/-- CGO (R305, R306). -/
def execCgo (a b : Reg) (e ds dt : BitVec 2) (o : BitVec 3) (s : State) : Out State :=
  copyGo (.cgo a b e ds dt o) a b e ds dt o false s

/-- CGOC (R305, R306, R322): an X instruction. -/
def execCgoc (a b : Reg) (e ds dt : BitVec 2) (o : BitVec 3) (s : State) : Out State :=
  s.onX (.cgoc a b e ds dt o) (copyGo (.cgoc a b e ds dt o) a b e ds dt o true s)

/-! ### Pieces (R308) -/

/-- The length of the run of destination elements from e that lie in one 64-byte block. -/
def runLen (d : Desc) (block total : Nat) : Nat → Nat → Nat
  | 0, _ => 0
  | n + 1, e => if decide (e < total) && (d.addr e).toNat / 64 == block then 1 + runLen d block total n (e + 1) else 0

/-- The number of elements of the piece that starts at e. -/
def CopyCmd.len (c : CopyCmd) (e : Nat) : Nat :=
  max 1 (runLen c.dst ((c.dst.addr e).toNat / 64) c.dst.count (64 / c.dst.bytes) e)

/-- The start of the n-th piece after the one that starts at e. -/
def CopyCmd.after (c : CopyCmd) : Nat → Nat → Nat
  | 0, e => e
  | n + 1, e => CopyCmd.after c n (e + c.len e)

/-- Every piece is performed. -/
def CopyCmd.ended (c : CopyCmd) : Bool := decide (c.dst.count ≤ c.first)

/-- The first piece still to do, once those that are done are passed over. -/
def CopyCmd.skip (c : CopyCmd) : Nat → CopyCmd
  | 0 => c
  | n + 1 => if c.done.contains c.first then CopyCmd.skip { c with first := c.first + c.len c.first, done := c.done.erase c.first } n else c

/-- A piece is performed (R308): what was kept of it goes. -/
def CopyCmd.did (c : CopyCmd) (e sat : Nat) : CopyCmd :=
  let c := { c with done := c.done ++ [e], sat := c.sat + sat }.skip 64
  { c with
    scales := List.filter (fun (z : Nat × Int) => decide (c.first / 32 ≤ z.1)) c.scales
    branches := c.branches.filter (fun b => b.1 != e)
    words := c.words.filter (fun w => w.1 != e)
    flits := c.flits.filter (fun f => f.1 != e) }

/-- The elements performed. -/
def CopyCmd.performed (c : CopyCmd) : Nat := min c.dst.count (c.done.foldl (fun n e => n + c.len e) c.first)

/-! ### Addresses of a copy (R313) -/

/-- The placement table of a command's owner. -/
def State.cmdRanges (s : State) (cid : Nat) : List Range :=
  match (if ctxOf (baseCid cid) = 0 then none else s.launch (s.owner cid).launch) with
  | some l => l.ranges
  | none => (s.part (s.partOf (dieOf (coreOf (baseCid cid))))).table

/-- A core's scratchpad is kept from a command (R59). -/
def State.cmdKept (s : State) (cid core : Nat) : Bool :=
  match (s.core core).retained with
  | some n => ctxOf (baseCid cid) != 0 && (s.owner cid).launch != n
  | none => false

/-- The home of an address of a command, unless it is refused. -/
def State.cmdHome (s : State) (cid : Nat) (x : Word) (n : Nat) : Option Nat :=
  if isWindow (baseCid cid) x || s.hitsRing (baseCid cid) x n then none
  else (homeWith s (dieOf (coreOf (baseCid cid))) (s.cmdRanges cid) x).filter (fun h => !(isPad x && s.cmdKept cid h))

/-- What stops a piece: the fault code of R313, or something that it waits for, with the state that has asked for it. -/
inductive CopyStop where
  | fault (fc : Nat)
  | wait (s : State)

/-- The outcome of a part of a piece. -/
abbrev CopyRes (α : Type) := Except CopyStop α

/-- An address of a command lies where its thread's stack grows (R175, R232). -/
def State.cmdGrows (s : State) (c : CopyCmd) (x : Word) : Bool :=
  (match rangeFor (s.cmdRanges c.cid) (bits x 0 48) with
    | some g => g.stk
    | none => false) && s.slotGrows (s.owner c.cid) (bits x 0 48)

/-- The home and the memory key of n bytes of a command, or what stops it. -/
def State.cmdKey (s : State) (c : CopyCmd) (x : Word) (n : Nat) (write : Bool) : CopyRes (Nat × Nat) :=
  if x.toNat % n != 0 then .error (.fault 2)
  else
    match s.cmdHome c.cid x n with
    | none => .error (.fault 2)
    | some h =>
      if s.severed (coreOf (baseCid c.cid)) h then .error (.fault 2)
      else if isPad x then (if (s.core h).powered then .ok (h, x.toNat) else .error (.fault 1))
      else
        match s.translate (vkey c.asn x) write with
        | .ok k => .ok (h, k)
        | .error fc => if fc = 0 && s.cmdGrows c x then .error (.wait (s.growth h x)) else .error (.fault fc)

/-- The code of a scratchpad word that cannot be had (R313). -/
def State.lostCode (s : State) (core k : Nat) : Nat :=
  if padCore k = core || (groupOf (s.core (padCore k)) (groupNo (padOff k / 8))).st == .lost then 2 else 1

/-- The hub of a peer port (R382). -/
def peerHub (port : Nat) : Nat := if port < 12 then hubW else hubW + 1

/-- The port to a peer device: none for this device itself, one not in the peer table, or one with no port up that the core can
reach (R373, R382, R385). -/
def State.peerPort (s : State) (core : Nat) (dev : BitVec 17) : Option Nat :=
  if dev == s.device then none
  else ((s.peers.get dev.toNat []).find? (fun p => (s.peer p).up)).filter (fun p => !s.severed core (peerHub p))

/-- n bytes read for a command; a peer's bytes are free, the same whenever the command reads them for one element (`tag`). -/
def State.copyRead (s : State) (core : Nat) (c : CopyCmd) (dev : BitVec 17) (n : Nat) (x : Word) (tag : Nat) : CopyRes (State × Nat) :=
  if dev != 0 then
    match s.peerPort core dev with
    | none => .error (.fault 2)
    | some _ => .ok (s, leNat ((List.range n).map (fun j => Config.freePeerByte dev.toNat (x.toNat + j) (c.id * 2 ^ 42 + tag))))
  else
    match s.cmdKey c x n false with
    | .error e => .error e
    | .ok (_, k) =>
      match s.load k n with
      | none => .error (.fault (s.lostCode core k))
      | some (v, s) => .ok (s, v)

/-- Several reads in order. -/
def State.copyReads (s : State) (core : Nat) (c : CopyCmd) (dev : BitVec 17) (n : Nat) : List (Word × Nat) → CopyRes (State × List Nat)
  | [] => .ok (s, [])
  | x :: rest =>
    match s.copyRead core c dev n x.1 x.2 with
    | .error e => .error e
    | .ok (s, v) =>
      match State.copyReads s core c dev n rest with
      | .error e => .error e
      | .ok (s, l) => .ok (s, v :: l)

/-- The homes ask for the copies of n bytes that a command writes; one whose line has overflowed records the held write once
(R238, R247). -/
def State.copyRecall (s : State) (k n : Nat) : State :=
  (s.busyHomes k n).foldl (fun s e =>
    if (dirOf (s.core e.1) e.2).ovf && !(dirOf (s.core e.1) e.2).told then
      (s.overflowHeld e.1 e.2).onLine e.1 e.2 (fun d => { d with told := true })
    else s) (s.recallAll k n)

/-- Every byte that a command writes at some addresses may be written now: each has a place to go and no copy is left of it. -/
def State.copyClear (s : State) (c : CopyCmd) : List (Word × Nat) → CopyRes Unit
  | [] => .ok ()
  | (x, n) :: rest =>
    match s.cmdKey c x n true with
    | .error e => .error e
    | .ok (_, k) =>
      if s.agentFree agentCid k n then State.copyClear s c rest
      else
        match State.copyClear (s.copyRecall k n) c rest with
        | .error e => .error e
        | .ok () => .error (.wait (s.copyRecall k n))

/-- n bytes written for a command at one address. -/
def State.copyWrite (s : State) (core : Nat) (c : CopyCmd) (x : Word) (n v : Nat) : CopyRes State :=
  match s.cmdKey c x n true with
  | .error e => .error e
  | .ok (_, k) =>
    match s.agentStore agentCid (vkey c.asn x) k (leBytes n v) with
    | none => .error (.fault (s.lostCode core k))
    | some s => .ok s

/-- One value that a piece writes: its address, whether it is a scale byte, its bytes, and the value. -/
structure CopyMove where
  addr : Word
  scale : Bool
  n : Nat
  v : Nat

/-- Where a branch of a copy writes a value: at its address, or for a multicast at its offset in the branch's core when it lies
in the core of its base (none otherwise, R308). A scale byte of a region in global memory is written by the first branch. -/
def Desc.place (d : Desc) (b : Option Nat) (m : CopyMove) : Option (List Word) :=
  let base := if m.scale then d.sbase.getD 0 else d.base
  match b with
  | none => some [m.addr]
  | some core =>
    if m.scale && !isPad base then some (if (d.cores.getD []).head? == some core then [m.addr] else [])
    else if isPad m.addr && bits m.addr 19 44 == bits base 19 44 then some [BitVec.ofNat 64 (padAt core (bits m.addr 0 19))]
    else none

/-- The writes of a branch, or none when one leaves its core. -/
def Desc.branch (d : Desc) (b : Option Nat) : List CopyMove → Option (List (Word × Nat × Nat))
  | [] => some []
  | m :: rest =>
    match d.place b m, Desc.branch d b rest with
    | some xs, some l => some (xs.map (fun x => (x, m.n, m.v)) ++ l)
    | _, _ => none

/-- Writes in order. -/
def State.copyWrites (s : State) (core : Nat) (c : CopyCmd) : List (Word × Nat × Nat) → CopyRes State
  | [] => .ok s
  | w :: rest =>
    match s.copyWrite core c w.1 w.2.1 w.2.2 with
    | .error e => .error e
    | .ok s => State.copyWrites s core c rest

/-- A branch of a piece is written: at once, or not at all (R310). -/
def State.copyBranch (s : State) (core : Nat) (c : CopyCmd) (ms : List CopyMove) (b : Option Nat) : CopyRes State :=
  match c.dst.branch b ms with
  | none => .error (.fault 2)
  | some ws =>
    match s.copyClear c (ws.map (fun w => (w.1, w.2.1))) with
    | .error e => .error e
    | .ok () => s.copyWrites core c ws

/-- The first of some branches that can be written, once those before it have asked for what they wait for; and the fault code
of one before it. -/
def State.copyBranches (s : State) (core : Nat) (c : CopyCmd) (ms : List CopyMove) : List (Option Nat) → State × Option (Option Nat) × Option Nat
  | [] => (s, none, none)
  | b :: rest =>
    match s.copyBranch core c ms b with
    | .ok s => (s, some b, none)
    | .error (.wait s) => State.copyBranches s core c ms rest
    | .error (.fault fc) =>
      let r := State.copyBranches s core c ms rest
      (r.1, r.2.1, some fc)

/-! ### What a piece computes (R307) -/

/-- The source element of a value and its scale byte. -/
def elemOf (f v sc : Nat) : Elem :=
  match copyFmt f with
  | some m => .ieee m v
  | none => .dm8 v (signedOf sc 8)

/-- The scale bytes of the source blocks of some elements, each read once (R263); 0 without a region. -/
def State.copyScaleBytes (s : State) (core : Nat) (c : CopyCmd) (es : List Nat) : CopyRes (State × List (Nat × Nat)) :=
  if c.src.sbase.isSome then
    let bs := (es.map (fun e => e / 32)).eraseDups
    match s.copyReads core c c.src.dev 1 (bs.map (fun b => (c.src.scale (32 * b), 2 ^ 41 + b))) with
    | .error e => .error e
    | .ok (s, vs) => .ok (s, bs.zip vs)
  else .ok (s, [])

/-- The source values of some elements, with the scale byte of each. -/
def State.copySource (s : State) (core : Nat) (c : CopyCmd) (es : List Nat) : CopyRes (State × List (Nat × Nat)) :=
  match s.copyReads core c c.src.dev c.src.bytes (es.map (fun e => (c.src.addr e, e))) with
  | .error e => .error e
  | .ok (s, vs) =>
    match s.copyScaleBytes core c es with
    | .error e => .error e
    | .ok (s, ss) => .ok (s, vs.zip (es.map (fun e => ((ss.find? (fun b => b.1 == e / 32)).map (fun b => b.2)).getD 0)))

/-- The scales that a conversion into DM8 gives to some blocks: each is chosen once (R264). -/
def State.copyScales (s : State) (core : Nat) (c : CopyCmd) : List Nat → CopyRes (State × List (Nat × Int))
  | [] => .ok (s, [])
  | b :: rest =>
    match (match c.scales.find b with
      | some z => .ok (s, z)
      | none => match s.copySource core c ((List.range 32).map (fun k => 32 * b + k)) with
        | .error e => .error e
        | .ok (s, vs) => .ok (s, blockScale (vs.map (fun v => (elemOf c.src.fmt v.1 v.2).fp))) : CopyRes (State × Int)) with
    | .error e => .error e
    | .ok (s, z) =>
      match State.copyScales s core c rest with
      | .error e => .error e
      | .ok (s, l) => .ok (s, (b, z) :: l)

/-- The value of one destination element of a cvt, and whether it saturated. -/
def copyConv (core : Nat) (c : CopyCmd) (e : Nat) (x : Elem) (sc : Int) : Nat × Bool :=
  match copyFmt c.dst.fmt with
  | some m => (x.toFmt core e m, false)
  | none => dm8Of x.fp sc

/-- The writes of a piece, its saturations and the scales that it has chosen. -/
structure CopyPlan where
  moves : List CopyMove
  sat : Nat
  scales : List (Nat × Int)

/-- What a copy or cvt piece writes. -/
def State.copyPlan (s : State) (core : Nat) (c : CopyCmd) (es : List Nat) : CopyRes (State × CopyPlan) :=
  match s.copySource core c es with
  | .error e => .error e
  | .ok (s, vs) =>
    let heads := es.filter (fun e => e % 32 == 0)
    if c.op = 0 then
      let ws := (es.zip vs).map (fun p => (⟨c.dst.addr p.1, false, c.dst.bytes, p.2.1⟩ : CopyMove))
      let ss := if c.dst.sbase.isSome then
          ((es.zip vs).filter (fun p => heads.contains p.1)).map (fun p => (⟨c.dst.scale p.1, true, 1, p.2.2⟩ : CopyMove))
        else []
      .ok (s, ⟨ws ++ ss, 0, []⟩)
    else
      match (if c.dst.sbase.isSome then s.copyScales core c (es.map (fun e => e / 32)).eraseDups else .ok (s, [])) with
      | .error e => .error e
      | .ok (s, scs) =>
        let sc (e : Nat) : Int := ((scs.find? (fun b => b.1 == e / 32)).map (fun b => b.2)).getD 0
        let rs := (es.zip vs).map (fun p => (p.1, copyConv core c p.1 (elemOf c.src.fmt p.2.1 p.2.2) (sc p.1)))
        let ws := rs.map (fun r => (⟨c.dst.addr r.1, false, c.dst.bytes, r.2.1⟩ : CopyMove))
        let ss := if c.dst.sbase.isSome then heads.map (fun e => (⟨c.dst.scale e, true, 1, (BitVec.ofInt 8 (sc e)).toNat⟩ : CopyMove)) else []
        .ok (s, ⟨ws ++ ss, (rs.filter (fun r => r.2.2)).length, scs⟩)

/-! ### What becomes of a piece (R308 to R310) -/

/-- A piece is performed, with its saturations; it goes on or waits; or it meets a fault. -/
inductive PieceOut where
  | done (s : State) (c : CopyCmd) (sat : Nat)
  | later (s : State) (c : CopyCmd)
  | fault (fc : Nat)

/-- What stops a piece, as its outcome. -/
def CopyStop.out (c : CopyCmd) : CopyStop → PieceOut
  | .fault fc => .fault fc
  | .wait s => .later s c

/-! ### Accumulation (R309) -/

/-- A word after its elements are added (R278). -/
def accWord (core : Nat) (c : CopyCmd) (v : Nat) (es : List (Nat × Nat × Nat)) : Nat :=
  let n := 8 * c.dst.bytes
  let m := (copyFmt c.dst.fmt).getD fp32
  es.foldl (fun v p =>
    let o := (c.dst.addr p.1).toNat % 8 * 8
    let d := v / 2 ^ o % 2 ^ n
    v - d * 2 ^ o + m.accum core p.1 d (elemOf c.src.fmt p.2.1 p.2.2) * 2 ^ o) v

/-- The reserve of a destination word for a piece: a request of the siding and of no thread, which carries the piece and the
command. -/
def CopyCmd.reserve (c : CopyCmd) (piece : Nat) (x : Word) : Req :=
  ⟨baseCid c.cid, 0, c.seq, none, x, vkey c.asn x, .reserve .add true false (BitVec.ofNat 64 piece) (BitVec.ofNat 64 c.id), 0⟩

/-- A reserve of the siding is queued at its home, or its answer is on its way. -/
def State.asked (s : State) (h : Nat) (r : Req) : Bool :=
  (s.core h).waits.any (fun w => w.req == r) || s.net.any (fun m => match m.body with
    | .reply q _ _ => q == r
    | _ => false)

/-- The command no longer holds a word of a piece. -/
def CopyCmd.ungrant (c : CopyCmd) (piece : Nat) (x : Word) : CopyCmd :=
  { c with grants := c.grants.filter (fun g => !(g.piece == piece && g.word == x)) }

/-- The command holds a word. -/
def CopyCmd.granted (c : CopyCmd) (g : Grant) : CopyCmd :=
  { c.ungrant g.piece g.word with grants := (c.ungrant g.piece g.word).grants ++ [g] }

/-- The release of a word waits at its home, where another store has filled the word meanwhile (R184). -/
def State.releaseQueued (s : State) (g : Grant) : Bool :=
  (s.core g.home).waits.any (fun w => w.req.cid == g.req.cid && w.req.tid == 0 && w.req.key == g.req.key && w.req.seq == g.req.seq
    && (match w.req.op with | .release _ => true | _ => false))

/-- A word that the command holds takes its elements and is released as STF does, once. -/
def State.accRelease (s : State) (core k : Nat) (c : CopyCmd) (g : Grant) (es : List (Nat × Nat × Nat)) : PieceOut :=
  if g.sent then
    if s.releaseQueued g then .later s c else .done s { c.ungrant g.piece g.word with words := c.words ++ [(g.piece, g.word)] } 0
  else if !s.lineFree g.home k then .later (s.copyRecall k 8) (c.granted g)
  else
    match s.performAt g.home k { g.req with op := .release (BitVec.ofNat 64 (accWord core c g.value.toNat es)) } with
    | (s, .acked _) => .done s { c.ungrant g.piece g.word with words := c.words ++ [(g.piece, g.word)] } 0
    | (_, .faulted ..) => .fault (s.lostCode core k)
    | (s, .queued) => .later s (c.granted { g with sent := true })
    | (s, _) => .later s (c.granted g)

/-- One destination word of an acc piece: reserved, when it is not held yet, then added to and released. A reserve that is
queued waits at the home like that of an ATOM; a refused one is sent again (R309). -/
def State.accOne (s : State) (core : Nat) (c : CopyCmd) (piece : Nat) (x : Word) (es : List (Nat × Nat × Nat)) : PieceOut :=
  match s.cmdKey c x 8 true with
  | .error e => e.out c
  | .ok (h, k) =>
    let r := c.reserve piece x
    match c.grants.find? (fun g => g.piece == piece && g.word == x) with
    | some g => s.accRelease core k c g es
    | none =>
      if s.asked h r then .later s c
      else
        match s.performAt h k r with
        | (s, .value v _) => s.accRelease core k c ⟨piece, x, h, r, v, false⟩ es
        | (_, .faulted ..) => .fault (s.lostCode core k)
        | (s, _) => .later s c

/-- The words of an acc piece in address order. -/
def State.copyAcc (s : State) (core : Nat) (c : CopyCmd) (piece : Nat) (es : List (Nat × Nat × Nat)) : List Word → PieceOut
  | [] => .done s c 0
  | x :: rest =>
    if c.words.contains (piece, x) then State.copyAcc s core c piece es rest
    else
      match s.accOne core c piece x (es.filter (fun p => (c.dst.addr p.1).toNat / 8 * 8 == x.toNat)) with
      | .done s c _ => State.copyAcc s core c piece es rest
      | o => o

/-- Inserts a word among rising ones. -/
def insertWord (x : Word) : List Word → List Word
  | [] => [x]
  | y :: rest => if x = y then y :: rest else if x.toNat < y.toNat then x :: y :: rest else y :: insertWord x rest

/-- The 8-byte words that some elements touch, rising. -/
def CopyCmd.touched (c : CopyCmd) (es : List Nat) : List Word :=
  es.foldl (fun l e => insertWord (BitVec.ofNat 64 ((c.dst.addr e).toNat / 8 * 8)) l) []

/-- A reservation is granted to the siding: the command holds the word, or, once it has ended, the word is released (R309). -/
def State.copyGranted (s : State) (core home : Nat) (r : Req) (piece id : Word) (v : Word) : State :=
  let mine (c : CopyCmd) : Bool := c.id == id.toNat && c.status == 0
  if (s.core core).copies.any mine then
    s.onCore core (fun k => { k with copies := k.copies.map (fun c => if mine c then c.granted ⟨piece.toNat, r.addr, home, r, v, false⟩ else c) })
  else s.send core home (.req { r with op := .release v })

/-! ### Pieces for a peer (R382, R383, R385) -/

/-- A flit with its own epoch bit joins the replay buffer until it is acknowledged, and counts in the nonce of its key (R383, R384). -/
def PeerPort.sendFlit (p : PeerPort) : PeerPort :=
  { p with txSeq := p.txSeq + 1, nonce := p.nonce + 1, replay := p.replay ++ [⟨p.txSeq, p.epoch, 0⟩] }

/-- Sends a flit from a port. -/
def State.sendFlit (s : State) (p : Nat) : State := s.setPeer p (s.peer p).sendFlit

/-- A piece for a peer: it is refused, or sent when the replay buffer has room; it is performed once the peer has its flit and has
acknowledged the piece. -/
def State.copyPeer (s : State) (core : Nat) (c : CopyCmd) (piece sat : Nat) : PieceOut :=
  match c.flits.find? (fun f => f.1 == piece) with
  | some f => if (s.peer f.2.1).replay.any (fun e => e.seq == f.2.2) then .later s c else .done s c sat
  | none =>
    match s.peerPort core c.dst.dev with
    | none => .fault 2
    | some p =>
      if (s.peer p).replay.length < Config.replayMax then
        .later (s.sendFlit p) { c with flits := c.flits ++ [(piece, p, (s.peer p).txSeq)] }
      else .later s c

/-- The pieces that a port which goes down was carrying are to be sent again (R385). -/
def CopyCmd.unsent (port : Nat) (c : CopyCmd) : CopyCmd := { c with flits := c.flits.filter (fun f => f.2.1 != port) }

/-! ### Performing a piece -/

/-- The branches of a piece that are still to be written (R308, R310). -/
def CopyCmd.toWrite (c : CopyCmd) (piece : Nat) : List (Option Nat) :=
  match c.dst.cores with
  | none => [none]
  | some cs => (cs.filter (fun b => !c.branches.contains (piece, b))).map some

/-- What becomes of a piece once one of its branches is written. -/
def CopyCmd.wrote (c : CopyCmd) (piece : Nat) (b : Option Nat) : CopyCmd :=
  match b with
  | none => c
  | some core => { c with branches := c.branches ++ [(piece, core)] }

/-- PERFORMS what can be done now of the piece of a command that starts at an element. -/
def State.copyPiece (s : State) (core : Nat) (c : CopyCmd) (piece : Nat) : PieceOut :=
  let es := (List.range (c.len piece)).map (fun k => piece + k)
  if c.op = 2 then
    match s.copySource core c es with
    | .error x => x.out c
    | .ok (s, vs) => s.copyAcc core c piece (es.zip vs) (c.touched es)
  else
    match s.copyPlan core c es with
    | .error x => x.out c
    | .ok (s, p) =>
      let c := { c with scales := p.scales.foldl (fun t z => t.set z.1 z.2) c.scales }
      if c.dst.dev != 0 then s.copyPeer core c piece p.sat
      else
        match s.copyBranches core c p.moves (c.toWrite piece) with
        | (s, some b, _) =>
          let c := c.wrote piece b
          if b.isNone || (c.toWrite piece).isEmpty then .done s c p.sat else .later s c
        | (_, none, some fc) => .fault fc
        | (s, none, none) => .later s c

/-- The fault that a piece meets: at one of its reads or words, at the peer, or in any of its branches (R313). -/
def State.copyFaultAt (s : State) (core : Nat) (c : CopyCmd) (piece : Nat) : Option Nat :=
  if c.op = 2 || c.dst.dev != 0 then (match s.copyPiece core c piece with
    | .fault fc => some fc
    | _ => none)
  else
    match s.copyPlan core c ((List.range (c.len piece)).map (fun k => piece + k)) with
    | .error (.fault fc) => some fc
    | .error _ => none
    | .ok (s, p) => (c.toWrite piece).findSome? (fun b => match s.copyBranch core c p.moves b with
      | .error (.fault fc) => some fc
      | _ => none)

/-! ### Profiling (R401, R402) -/

/-- The accumulator of a home core and a bank. -/
def profIndex (home bank : Nat) : Nat := (home ^^^ (home / 32) ^^^ (7 * bank)) % 32

/-- The data bank that an address names, 16 for a slice. -/
def bankFor (x : Word) : Nat := if isPad x then bits x 3 4 else 16

/-- The accumulators of the remote accesses that a piece makes with one of its descriptors, at its first element: the homes that it reads
from or writes to, each core of a multicast, or a home of the peer device. An access of the core's own home is not remote. -/
def State.profAt (s : State) (core : Nat) (c : CopyCmd) (d : Desc) (e : Nat) : List Nat :=
  let x := d.addr e
  if d.dev != 0 then [profIndex (Config.freePeerHome s.stamp % 4096) 16]
  else
    ((match d.cores with
      | some cs => cs
      | none => (s.cmdHome c.cid x d.bytes).toList).filter (fun h => h != core)).map (fun h => profIndex h (bankFor x))

/-- The reply and the acknowledgements of a piece add their delays, which are free values (R401). -/
def State.profPiece (s : State) (core : Nat) (c : CopyCmd) (e : Nat) : State :=
  (s.profAt core c c.src e ++ s.profAt core c c.dst e).foldl
    (fun s i => s.tick.onCore core (fun k => k.profMerge [(i, 1, (Config.freeDelay s.stamp).toNat)])) s

/-- Copies of one core to one peer device are performed in issue order (R250). -/
def peerFirst (l : List CopyCmd) (k : Nat) (c : CopyCmd) : Bool :=
  c.dst.dev == 0 || !((l.take k).any (fun d => d.status == 0 && d.dst.dev == c.dst.dev))

/-- The k-th copy of a core, while it runs. -/
def State.copyAt (s : State) (core k : Nat) : Option CopyCmd :=
  ((s.core core).copies[k]?).filter (fun c => c.status == 0 && peerFirst (s.core core).copies k c)

/-- The record of a copy. -/
def CopyCmd.record (c : CopyCmd) (status : Nat) : Rec :=
  ⟨doneHeader c.cid 2 status c.seq (lo32 c.fval).toNat,
   BitVec.ofNat 64 (min (2 ^ 32 - 1) c.performed * 2 ^ 32 + min (2 ^ 32 - 1) c.sat)⟩

/-- Delivers a copy's record to its thread. -/
def State.cqRecord (s : State) (c : CopyCmd) (status : Nat) : State :=
  s.onOwner c.cid (fun t => { t with cq := t.cq ++ [c.record status] })

/-- The copies that stay, and the staged commands that no older copy of their context holds back any longer. -/
def promote : List CopyCmd → List CopyCmd → List CopyCmd × List MCmd
  | _, [] => ([], [])
  | before, c :: rest =>
    if c.status != 0 && !(before.any (fun d => d.status == 0 && d.cid == c.cid)) then
      let r := promote before rest
      (r.1, c.staged.toList ++ r.2)
    else
      let r := promote (before ++ [c]) rest
      (c :: r.1, r.2)

/-- Staged commands whose copies are complete become ready to enter (R322). -/
def State.promote (s : State) (core : Nat) : State :=
  s.onCore core (fun x => let r := Machine.promote [] x.copies; { x with copies := r.1, staged := x.staged ++ r.2 })

/-- The flag store of a copy whose pieces are performed (R243, R311): the state, or what stops it. -/
def State.copyFlag (s : State) (core : Nat) (c : CopyCmd) : CopyRes State :=
  if c.flag = 0 then .ok s
  else
    match s.copyClear c [(c.flag, 8)] with
    | .error e => .error e
    | .ok () => s.copyWrite core c c.flag 8 c.fval.toNat

/-- A copy ends without its effect: a record, its staged command dropped. -/
def State.copyStops (s : State) (core k : Nat) (c : CopyCmd) (status : Nat) : State :=
  let s := ((s.dropGrants core c).onCore core (fun x => { x with copies := x.copies.eraseIdx k })).cqRecord c status
  (s.dropStaged c.staged).promote core

/-! ### Pieces in flight at the end of a copy (R308, R312, R313) -/

/-- A piece of a command is in flight: some of it is done, reserved, or on its way to a peer. -/
def CopyCmd.inFlight (c : CopyCmd) (e : Nat) : Bool :=
  c.branches.any (fun b => b.1 == e) || c.words.any (fun w => w.1 == e) || c.grants.any (fun g => g.piece == e) || c.flits.any (fun f => f.1 == e)

/-- A piece of a command that is to end may still go on: any in flight of a cancelled one, and one on its way to a peer of a faulted one,
whose other pieces keep what is done of them for a replay. -/
def CopyCmd.goesOn (c : CopyCmd) (e : Nat) : Bool :=
  match c.closing with
  | none => true
  | some .cancelled => c.inFlight e
  | some (.faulted ..) => c.flits.any (fun f => f.1 == e)

/-- A command that is to end has no piece left that may go on. -/
def CopyCmd.finished (c : CopyCmd) : Bool :=
  match c.closing with
  | none => false
  | some .cancelled => c.branches.isEmpty && c.words.isEmpty && c.grants.isEmpty && c.flits.isEmpty
  | some (.faulted ..) => c.flits.isEmpty

/-- What was under way of a piece is given up: the rest of it meets a fault. -/
def CopyCmd.giveUp (c : CopyCmd) (e : Nat) : CopyCmd :=
  { c with
    branches := c.branches.filter (fun b => b.1 != e)
    words := c.words.filter (fun w => w.1 != e)
    grants := c.grants.filter (fun g => g.piece != e)
    flits := c.flits.filter (fun f => f.1 != e) }

/-- The entry of a faulted copy (R224, R313), with its progress. -/
def CopyCmd.entry (c : CopyCmd) (fc : Nat) (x : Word) (flag : Bool) : Faulted :=
  ⟨5, fc, none, c.seq, x, .copy { c with staged := none, flagOnly := flag, status := 2, grants := [], flits := [], closing := none }⟩

/-- The k-th copy of a core has gone on; one that is to end does so once nothing of it is in flight. -/
def State.copyGoesOn (s : State) (core k : Nat) (c : CopyCmd) : State :=
  match (if c.finished then c.closing else none) with
  | none => s.onCore core (fun x => { x with copies := x.copies.set k c })
  | some .cancelled => s.copyStops core k c 1
  | some (.faulted fc x flag) => (s.copyStops core k c 2).engineFault c.cid (c.entry fc x flag)

/-- COPY_PIECE_DONE (R308): of a piece among the 64 from the first unperformed one, what can be is performed. -/
def execCopyPieceDone (core k piece : Nat) (s : State) : Out State :=
  match s.copyAt core k with
  | none => .next s
  | some c =>
    let e := c.after piece c.first
    if c.flagOnly || decide (64 ≤ piece) || decide (c.dst.count ≤ e) || c.done.contains e || s.clockStops core || !c.goesOn e then .next s
    else
      match s.copyPiece core c e with
      | .fault _ => .next (if c.closing.isSome then (s.dropGrants core { c with grants := c.grants.filter (fun g => g.piece == e) }).copyGoesOn core k (c.giveUp e) else s)
      | .later s c => .next (s.copyGoesOn core k c)
      | .done s c sat => .next ((s.profPiece core c e).copyGoesOn core k (c.did e sat))

/-! ### The end of a copy (R311, R313, R322) -/

/-- COPY_COMPLETE (R311): the flag is written, the record enters cq, and a staged command may go on. -/
def execCopyComplete (core k : Nat) (s : State) : Out State :=
  match s.copyAt core k with
  | none => .next s
  | some c =>
    if !(c.flagOnly || c.ended) || c.closing.isSome || s.clockStops core then .next s
    else
      match s.copyFlag core c with
      | .error (.wait s) => .next s
      | .error (.fault _) => .next s
      | .ok s =>
        let s := s.cqRecord c 0
        let s := s.onCore core (fun x => { x with
          copies := if c.staged.isSome then x.copies.set k { c with status := 3 } else x.copies.eraseIdx k })
        .next (s.promote core)

/-- COPY_FAULT (R313): the first unperformed piece, or the flag store, faults; the command ends once its later pieces on their way to a
peer are performed, so that a replay writes none of them again (R308). -/
def execCopyFault (core k : Nat) (s : State) : Out State :=
  match s.copyAt core k with
  | none => .next s
  | some c =>
    let stop (fc : Nat) (x : Word) (flag : Bool) : Out State := .next (s.copyGoesOn core k { c with closing := some (.faulted fc x flag) })
    if c.closing.isSome || s.clockStops core then .next s
    else if c.flagOnly || c.ended then
      match s.copyFlag core c with
      | .error (.fault fc) => stop fc c.flag true
      | _ => .next s
    else
      match s.copyFaultAt core c c.first with
      | some fc => stop fc (c.dst.addr c.first) false
      | none => .next s

/-- Cancels a copy by the model's own number of it: its staged command is dropped at once, and its pieces in flight finish (R312). -/
def State.copyCancelled (s : State) (core id : Nat) : State :=
  match (s.core core).copies.findIdx? (fun c => c.id == id) with
  | none => s
  | some k =>
    match (s.core core).copies[k]? with
    | none => s
    | some c => (s.dropStaged c.staged).copyGoesOn core k { c with staged := none, closing := some .cancelled }

/-- Cancels the running copies of a context, oldest first. -/
def State.copyCancel (s : State) (cid : Nat) : State :=
  (((s.core (coreOf cid)).copies.filter (fun c => c.cid == cid && c.status == 0)).map (fun c => c.id)).foldl
    (fun s id => s.copyCancelled (coreOf cid) id) s

/-- CCAN (R312). -/
def execCcan (e : BitVec 2) (s : State) : Out State :=
  s.withEnergy s e (fun s' => s.done (.ccan e) (s'.copyCancel s.cur))

/-- How a peer sees this device's memory (R382): address space 0 of the package's partition, or in partitioned mode of the one
whose window the firmware has registered for the port (a free value, log 80). -/
def State.peerView (s : State) (port : Nat) : View :=
  let part := if s.whole then 0xFF else Config.freePeerPart port % 4
  ⟨part, spaceOf part 0, (s.part part).table⟩

/-- The memory key of an address of a peer's piece: its home lies on a route from the port's hub that is not severed, and translates
it (R373, R382). -/
def State.pieceKey (s : State) (port : Nat) (x : Word) : Option Nat :=
  match homeWith s ((diesOfPart (s.peerView port).part).headD 0) (s.peerView port).ranges x with
  | some h => if s.severed (peerHub port) h then none else s.agentKey (s.peerView port) x true
  | none => none

/-- PEER_COPY_PIECE_ARRIVAL (R382): a piece from a peer is translated and performed at its homes; bytes that have no place to go
are refused there. -/
def execPeerCopyPieceArrival (port : Nat) (va : BitVec 64) (bytes : List Byte) (s : State) : Out State :=
  if !(s.peer port).up || isPad va then .next s
  else
    .next ((bytes.mapIdx (fun j b => (va + BitVec.ofNat 64 j, b))).foldl (fun s p =>
      match s.pieceKey port p.1 with
      | some k => (s.agentStore agentCid (vkey (s.peerView port).space p.1) k [p.2]).getD s
      | none => s) s)

end Sys2Proof.Machine
end

