-- ==== Sys2Proof/Machine/MulDiv.lean ====
section
/-! DEFINITION. Multiplies and divides (R129, R130, R136 to R139). A product is written when its packet
executes and the multiplier is taken for three cycles; a divide whose value is not ready within four cycles leaves
late, or toward a port holds its bay, and its value returns by DIVIDE_DONE. -/

namespace Sys2Proof.Machine

open Sys2Proof

/-! ### Products -/

/-- MULH (R129). -/
def mulhV (x y : Word) : Word := BitVec.ofInt 64 (x.toInt * y.toInt / 2 ^ 64)
/-- MULHN (R129). -/
def mulhnV (x y : Word) : Word := BitVec.ofNat 64 (x.toNat * y.toNat / 2 ^ 64)

/-- The multiplier of the core can start (R136). -/
def State.mulFree (s : State) : Bool :=
  match (s.core s.here).mul with
  | none => true
  | some t => decide (t ≤ (s.core s.here).cyc)

/-- Starts the multiplier for three cycles. -/
def State.takeMul (s : State) : State :=
  s.onCore s.here (fun c => { c with mul := some (c.cyc + 3) })

/-- A multiply: it waits for the multiplier, then writes its product (R129, R136). -/
def mul2 (i : Instr) (d a b : Reg) (f : Word → Word → Word) (s : State) : Out State :=
  if s.mulFree then s.withOps a b d (fun s' x y => s.done i (s'.takeMul.put d (f x y)))
  else s.waitFor (.siding false)

/-- MUL (R129). -/
def execMul (d a b : Reg) (s : State) : Out State := mul2 (.mul d a b) d a b (fun x y => x * y) s
/-- MULW (R129). -/
def execMulw (d a b : Reg) (s : State) : Out State := mul2 (.mulw d a b) d a b (w32 (fun x y => x * y)) s
/-- MULH (R129). -/
def execMulh (d a b : Reg) (s : State) : Out State := mul2 (.mulh d a b) d a b mulhV s
/-- MULHN (R129). -/
def execMulhn (d a b : Reg) (s : State) : Out State := mul2 (.mulhn d a b) d a b mulhnV s
/-- MULI (R129). -/
def execMuli (d a : Reg) (i : BitVec 16) (s : State) : Out State :=
  mul2 (.muli d a i) d a .zr (fun x _ => x * simm i) s

/-! ### Quotients and remainders (R130) -/

/-- Signed quotient at width n, truncating (R130). -/
def sdivV {n : Nat} (x y : BitVec n) : BitVec n :=
  if y = 0 then BitVec.allOnes n else BitVec.ofInt n (x.toInt.tdiv y.toInt)
/-- Signed remainder at width n, with the sign of the dividend (R130). -/
def sremV {n : Nat} (x y : BitVec n) : BitVec n :=
  if y = 0 then x else BitVec.ofInt n (x.toInt.tmod y.toInt)
/-- Unsigned quotient (R130). -/
def udivV {n : Nat} (x y : BitVec n) : BitVec n :=
  if y = 0 then BitVec.allOnes n else BitVec.ofNat n (x.toNat / y.toNat)
/-- Unsigned remainder (R130). -/
def uremV {n : Nat} (x y : BitVec n) : BitVec n :=
  if y = 0 then x else BitVec.ofNat n (x.toNat % y.toNat)

/-- The cycles L of a divide of values x and y at width n (R137). -/
def divCycles {n : Nat} (signed : Bool) (x y : BitVec n) : Nat :=
  if y = 0 || (signed && x == BitVec.intMin n && y == BitVec.allOnes n) then 2
  else
    let mag (v : BitVec n) : Nat := if signed then v.toInt.natAbs else v.toNat
    let k := bitlen (mag x) + 1 - bitlen (mag y)
    4 + (k + 1) / 2

/-- The number of a general register, for results that come later. -/
def regOf : Reg → Option (Fin 16)
  | .g n => some n
  | _ => none

/-- A late marker for a destination, if it is a general register (R75). -/
def State.lateFor (s : State) (r : Reg) : State :=
  match r with
  | .g n => s.markLate s.cur s.seqNow n
  | _ => s

/-- The core's cycle in which a divide of L cycles accepted now is ready: the divider works on one operation at a time, in order
of acceptance (R137). -/
def Core.divDue (c : Core) (len : Nat) : Nat := c.divq.foldl (fun n d => max n d.due) c.cyc + len

/-- The divides that the divider has accepted and not finished (R137). -/
def Core.divLoad (c : Core) : Nat := (c.divq.filter (fun d => decide (c.cyc < d.due))).length

/-- Its value counts in OUTLD until it is there (R138, R139). -/
def DivUse.counted : DivUse → Bool
  | .late | .dropped => true
  | _ => false

/-- The divider accepts an operation of the running packet (R137). -/
def State.accept (s : State) (d : Reg) (v : Word) (due : Nat) (use : DivUse) : State :=
  let s := if use.counted then s.withMe (fun m => { m with lates := m.lates ++ [m.seqNow] }) else s
  s.onCore s.here (fun k => { k with divq := k.divq ++ [⟨s.cur, s.th.tid, s.seqNow, regOf d, v, due, use⟩] })

/-- Completes a divide that the divider has accepted at stage 4. One whose block's comparison then fails at stage 10 has been
accepted all the same (R88, R139). -/
def State.doneKept (s : State) (i : Instr) (acc t : State) : Out State :=
  if stageOf i == 4 && s.sigFails i false then acc.raise .signature (s.sigDetail i false) else s.done i t

/-- A divide of L cycles (R137, R138): it waits for room in the queue; ready within four cycles, its value is written; otherwise
it leaves late. Toward a port it stands in the bay until its value is ready. -/
def div2 (i : Instr) (d a b : Reg) (f : Word → Word → Word) (len : Word → Word → Nat) (s : State) : Out State :=
  let c := s.core s.here
  if Config.divQueueMax < c.divLoad then s.waitFor (.siding true)
  else if Config.outldMax ≤ s.me.outld then s.waitFor .late
  else
    s.withOps a b d (fun s' x y =>
      let v := f x y
      let due := c.divDue (len x y)
      match d with
      | .port dir =>
        if s.sigFails i false then s.raise .signature (s.sigDetail i false)
        else ((s'.holdPlace dir).accept d v due (.push i dir)).waitFor .divided
      | _ =>
        if due ≤ c.cyc + 4 then s.doneKept i (s.accept d v due .written) ((s'.put d v).accept d v due .written)
        else s.doneKept i (s.accept d v due .dropped) ((s'.lateFor d).accept d v due .late))

/-- A W form of a quotient or remainder (R120, R130). -/
def div32 (f : BitVec 32 → BitVec 32 → BitVec 32) (x y : Word) : Word := sextLow (f (lo32 x) (lo32 y))
/-- L of a W form. -/
def len32 (signed : Bool) (x y : Word) : Nat := divCycles signed (lo32 x) (lo32 y)

/-- DIV (R130). -/
def execDiv (d a b : Reg) (s : State) : Out State := div2 (.div d a b) d a b sdivV (divCycles true) s
/-- DIVW (R130). -/
def execDivw (d a b : Reg) (s : State) : Out State := div2 (.divw d a b) d a b (div32 sdivV) (len32 true) s
/-- DIVN (R130). -/
def execDivn (d a b : Reg) (s : State) : Out State := div2 (.divn d a b) d a b udivV (divCycles false) s
/-- DIVNW (R130). -/
def execDivnw (d a b : Reg) (s : State) : Out State := div2 (.divnw d a b) d a b (div32 udivV) (len32 false) s
/-- REM (R130). -/
def execRem (d a b : Reg) (s : State) : Out State := div2 (.rem d a b) d a b sremV (divCycles true) s
/-- REMW (R130). -/
def execRemw (d a b : Reg) (s : State) : Out State := div2 (.remw d a b) d a b (div32 sremV) (len32 true) s
/-- REMN (R130). -/
def execRemn (d a b : Reg) (s : State) : Out State := div2 (.remn d a b) d a b uremV (divCycles false) s
/-- REMNW (R130). -/
def execRemnw (d a b : Reg) (s : State) : Out State := div2 (.remnw d a b) d a b (div32 uremV) (len32 false) s

end Sys2Proof.Machine
end

