-- ==== Sys2Proof/Machine/Reply.lean ====
section
/-! DEFINITION. What the homes and the issuing cores do with the messages of memory operations: a home's answer to each kind
of request (R184 to R211), and the reply, acknowledgement, fault, refusal or invalidation that reaches a core (R75, R177,
R179, R183, R186, R221, R238, R246, R401, R406). -/

namespace Sys2Proof.Machine

open Sys2Proof

/-- Runs an operation of the running context for another one. -/
def State.asOut (s : State) (cid : Nat) (f : State → Out State) : Out State :=
  match f { s with cur := cid } with
  | .next t => .next { t with cur := s.cur }
  | .fault x => .fault x
  | .refused x => .refused x

/-! ### A home's answer -/

/-- A HOME PERFORMS message n, when it is a request of an accepted kind. A severed route refuses it: ACCESS_FAULT at its source
(R373). A request that reaches a hub is one that a home has passed on for the host, which the home answers (R249). -/
def State.homeStep (s : State) (n : Nat) (ok : ReqOp → Bool) : Out State :=
  match s.msgAt n with
  | some ⟨src, h, .req r⟩ =>
    if !ok r.op then .next s
    else
      let s := s.dropMsg n
      if isHub h then
        let a := if s.severed src h then (s, .faulted 1 false) else s.home h r
        .next (((a.1.answerReq src r a.2).onCore src (fun c => { c with hosted := c.hosted.erase r })).homesGo src)
      else if s.severed src h then .next (s.answerReq h r (.faulted 1 false))
      else .next (s.homeTakes h r)
  | _ => .next s

/-- HOME_LOAD (R233): loads and prefetches. -/
def execHomeLoad (n : Nat) (s : State) : Out State :=
  s.homeStep n (fun o => match o with | .load .. | .prefetch => true | _ => false)
/-- HOME_WRITE_BACK (R237, R238): stores, and a launch word that waited behind a host's store (R249). -/
def execHomeWriteBack (n : Nat) (s : State) : Out State :=
  s.homeStep n (fun o => match o with | .store .. | .launch _ => true | _ => false)
/-- HOME_LDF (R184). -/
def execHomeLdf (n : Nat) (s : State) : Out State := s.homeStep n (fun o => match o with | .ldf | .claim => true | _ => false)
/-- HOME_LDFF (R184). -/
def execHomeLdff (n : Nat) (s : State) : Out State := s.homeStep n (fun o => match o with | .ldff => true | _ => false)
/-- HOME_STF (R184). -/
def execHomeStf (n : Nat) (s : State) : Out State := s.homeStep n (fun o => match o with | .stf _ => true | _ => false)
/-- HOME_SETE (R198). -/
def execHomeSete (n : Nat) (s : State) : Out State := s.homeStep n (fun o => match o with | .sete => true | _ => false)
/-- HOME_SETF (R198). -/
def execHomeSetf (n : Nat) (s : State) : Out State := s.homeStep n (fun o => match o with | .setf => true | _ => false)
/-- HOME_ATOM_RESERVE (R188). -/
def execHomeAtomReserve (n : Nat) (s : State) : Out State :=
  s.homeStep n (fun o => match o with | .reserve .. => true | _ => false)
/-- HOME_ATOM_RELEASE (R188). -/
def execHomeAtomRelease (n : Nat) (s : State) : Out State :=
  s.homeStep n (fun o => match o with | .release _ => true | _ => false)
/-- HOME_WATCH (R191). -/
def execHomeWatch (n : Nat) (s : State) : Out State := s.homeStep n (fun o => match o with | .watch => true | _ => false)
/-- HOME_UNWATCH (R191). -/
def execHomeUnwatch (n : Nat) (s : State) : Out State := s.homeStep n (fun o => match o with | .unwatch => true | _ => false)
/-- HOME_WAITA_READ (R193). -/
def execHomeWaitaRead (n : Nat) (s : State) : Out State := s.homeStep n (fun o => match o with | .waita => true | _ => false)
/-- HOME_FLUSH (R196). -/
def execHomeFlush (n : Nat) (s : State) : Out State := s.homeStep n (fun o => match o with | .flush => true | _ => false)
/-- HOME_BINIT (R209). -/
def execHomeBinit (n : Nat) (s : State) : Out State := s.homeStep n (fun o => match o with | .binit _ => true | _ => false)
/-- HOME_ARV (R210). -/
def execHomeArv (n : Nat) (s : State) : Out State := s.homeStep n (fun o => match o with | .arv .. => true | _ => false)
/-- HOME_BWT (R211). -/
def execHomeBwt (n : Nat) (s : State) : Out State := s.homeStep n (fun o => match o with | .bwt _ => true | _ => false)

/-- ORPHAN_MESSAGE (R187): the home serves the waiters of a word whose holder ended, while that thread still holds it. -/
def execOrphanMessage (n : Nat) (s : State) : Out State :=
  match s.msgAt n with
  | some ⟨_, h, .orphan k tid⟩ =>
    let s := s.dropMsg n
    match (s.core h).reserved.find k with
    | some e => if e.atom || e.holder != some tid then .next s else .next (s.serve h k true)
    | none => .next s
  | _ => .next s

/-! ### Functions of the host (R249, R404) -/

/-- A completion to the host: the data, and whether they are poisoned or the access failed. -/
def State.answerHost (s : State) (fn : Nat) (v : Word) (bad : Bool) : State :=
  s.onFunc fn (fun f => { f with readData := f.readData ++ [(v, bad)] })

/-- MSI-X vector 0 is raised. -/
def State.msix (s : State) (fn : Nat) : State := s.onFunc fn (fun f => { f with msix := f.msix + 1 })

/-- A 32-bit count that saturates. -/
def sat32 (n : BitVec 32) : BitVec 32 := if n = BitVec.allOnes 32 then n else n + 1

/-- A host access that is not performed is counted and recorded. -/
def State.hostBad (s : State) (fn : Nat) (off : Word) : State :=
  s.onFunc fn (fun f => { f with hbadw := sat32 f.hbadw, hbada := off.truncate 48 })

/-- The requests of a function's CXL.mem writes. -/
def cxlCid (fn : Nat) : Nat := hostCid + fn

/-- The function of a request of the host. -/
def fnOfCid (cid : Nat) : Nat := cid % 0x800

/-- A request of the host's and not of a context's. -/
def isHostCid (cid : Nat) : Bool := decide (hostCid ≤ cid)

/-- A write of the host that a home had kept is performed, or refused: a CXL.mem write completes, and a posted write that is
refused is counted and signalled (R404). -/
def State.hostDone (s : State) (r : Req) (ok : Bool) : State :=
  match r.op with
  | .store .. =>
    let fn := fnOfCid r.cid
    if decide (r.cid < postedCid 0) then (if ok then s.answerHost fn 0 false else (s.hostBad fn r.addr).answerHost fn 0 true)
    else if ok then s else (s.hostBad fn r.addr).msix fn
  | _ => s

/-! ### Profiling (R84, R401) -/

/-- Two sets of profiling counts together. -/
def addCounts (a b : Tab (Nat × Nat)) : Tab (Nat × Nat) :=
  b.foldl (fun t e => let x := t.get e.1 (0, 0); t.set e.1 (x.1 + e.2.1, x.2 + e.2.2)) a

/-- A thread with a name sent a request and is still in its context. -/
def State.asker (s : State) (r : Req) : Bool := (s.ctx r.cid).th.tid == r.tid && r.tid != 0

/-- The packet in the stage 6 bay of the request's context, when it is the one that sent it. -/
def State.bayOf (s : State) (r : Req) : Option Instr :=
  match (s.ctx r.cid).bay with
  | some (i, q) => if s.asker r && q.seq == r.seq then some i else none
  | none => none

/-- The request has left stage 6 late and its value is still awaited (R75). -/
def State.isLate (s : State) (r : Req) : Bool := s.asker r && (s.ctx r.cid).lates.contains r.seq

/-- The delay of a reply is owed by its packet until that retires, and is added at once for a packet that has retired; the request
of a deleted or withdrawn packet adds nothing (R84, R401). -/
def State.profReply (s : State) (home : Nat) (r : Req) (delay : BitVec 16) : State :=
  let core := coreOf r.cid
  let counts : Tab (Nat × Nat) := [(profIndex home (bankFor r.addr), 1, delay.toNat)]
  if core = home || isHostCid r.cid || r.tid == 0 then s
  else if (s.bayOf r).isSome then s.onCtx r.cid (fun c => { c with owed := addCounts c.owed counts })
  else if s.asker r && (s.ctx r.cid).retiring.any (fun p => p.seq == r.seq) then
    s.onCtx r.cid (fun c => { c with retiring := c.retiring.map (fun p =>
      if p.seq == r.seq then { p with counts := addCounts p.counts counts } else p) })
  else if r.op.isPosted || s.isLate r then s.onCore core (fun c => c.profMerge counts)
  else s

/-! ### Replies (R75, R76, R179, R188) -/

/-- A reply cause becomes pending (R179). -/
def State.replyCause (s : State) (r : Req) (c : Option Cause) : State :=
  match c with
  | some c => if s.asker r then s.onCtx r.cid (fun m => { m with replies := m.replies ++ [(c, r.addr)] }) else s
  | none => s

/-- The code by which a home knows the holder of a core's copy (R246, R248). -/
def copyCode (core home : Nat) : Nat := if dieOf core = dieOf home then core else replicaCode (dieOf core)

/-- A line that a load brought in is held by the core's L1 and, when its home is on another die, by the die's replica, which
supplies it (R238, R246); a home that has since given the line up has no copies of it. -/
def State.fill (s : State) (r : Req) (home : Nat) : State :=
  let core := coreOf r.cid
  match (if isPad r.addr then none else s.phys r.key) with
  | none => s
  | some p =>
    let line := lineOf p
    let d := dirOf (s.core home) line
    if isHostKey p || !(d.sharers.contains (copyCode core home) || d.ovf) then s
    else
      let s := s.onCore core (fun c => { c with l1 := addLine c.l1 ⟨r.key / 32 * 32, s.mem.bytes (p / 32 * 32) 32⟩ })
      if dieOf core = dieOf home then s
      else
        let at_ := replicaCore (dieOf core) line
        match s.replica (dieOf core) line with
        | some x => s.onCore at_ (fun c => { c with reps := c.reps.set line { x with sharers := if x.sharers.contains core then x.sharers else x.sharers ++ [core] } })
        | none => (s.sliceRoom at_).onCore at_ (fun c => { c with reps := c.reps.set line ⟨[core], s.mem.bytes line 256⟩ })

/-- The register value that a reply gives, and the release that the memory siding then sends to the home of an ATOM (R188). -/
def replyValue (r : Req) (v : Word) (c : Option Cause) : Word × Option Req :=
  match r.op with
  | .reserve fn wide high opnd cmp =>
    match c with
    | some _ => (atomOld wide high v, none)
    | none => let p := atomResult fn wide high v opnd cmp; (p.2, some { r with op := .release p.1, reg := none })
  | _ => (v, none)

/-- A claim of a request is done with: it has its outcome, or it failed and is gone (R52, R79). -/
def Thread.claimDone (t : Thread) (r : Req) (out : Option (Option (Nat × Nat))) : Thread :=
  let mine (q : Claim) : Bool := q.seq == r.seq && q.ctr == r.addr && q.out.isNone
  { t with nest := { t.nest with claims := match out with
      | some o => t.nest.claims.map (fun q => if mine q then { q with out := some o } else q)
      | none => t.nest.claims.filter (fun q => !mine q) } }

/-- The claim that a thread has sent with a request. -/
def State.claimSent (s : State) (r : Req) : Option Claim :=
  let of (t : Thread) : Option Claim := if t.tid == r.tid then t.nest.claims.find? (fun q => q.seq == r.seq && q.ctr == r.addr && q.out.isNone) else none
  (s.ctxs.findSome? (fun e => if e.2.holdsThread then (of e.2.th).or (e.2.reserved.bind of) else e.2.reserved.bind of)).or
    (s.heldThreads.findSome? (fun p => of p.th))

/-- The NEST or NEXT that waits for a claim executes again. -/
def State.claimWakes (s : State) (r : Req) : State :=
  if (s.bayOf r).isSome then s.onCtx r.cid (fun c => { c with bay := none, run := if c.run == .waiting .reply then .runnable else c.run })
  else s

/-- A claim's value has arrived: the fetcher has its outcome and stores the counter back, wherever its thread is (R52, R79). -/
def State.claimArrives (s : State) (home : Nat) (r : Req) (v : Word) : State :=
  match s.claimSent r with
  | none => s.send (coreOf r.cid) home (.orphan ((s.phys r.key).getD r.key) r.tid)
  | some q =>
    let p := claimOf v.toNat q.n q.p q.minc
    ((s.claimWakes r).onThread r.tid (fun t => t.claimDone r (some p.1))).send (coreOf r.cid) home
      (.req { r with op := .stf (BitVec.ofNat 64 p.2) })

/-- The reserve of an ATOM has its answer: the release, if one follows, goes with the thread's other operations, or for a thread
that is gone at once (R187, R189). -/
def State.atomGot (s : State) (home : Nat) (r : Req) (rel : Option Req) : State :=
  if (s.core (coreOf r.cid)).atoms.any (fun a => a.cid == r.cid && a.tid == r.tid && a.seq == r.seq) then
    s.atomAnswered r (rel.map (fun q => (q, s.asker r)))
  else
    match rel with
    | some q => s.sendRelease home q false
    | none => if s.threadLives r.tid then s else s.send (coreOf r.cid) home (.orphan ((s.phys r.key).getD r.key) r.tid)

/-- What the memory siding does with a value besides giving it to its packet: an ATOM goes on to its release, and a word that an
LDF took for a thread that is gone is orphaned (R187, R188). -/
def State.taken (s : State) (home : Nat) (r : Req) (rel : Option Req) : State :=
  match r.op with
  | .reserve .. => s.atomGot home r rel
  | .ldf => if s.threadLives r.tid then s else s.send (coreOf r.cid) home (.orphan ((s.phys r.key).getD r.key) r.tid)
  | _ => s

/-- A value reaches the issuing core: the packet in the bay completes, a late value starts at stage 11, a copy's reservation goes
to its command, or a value that nothing waits for is discarded. -/
def State.valueArrives (s : State) (home : Nat) (r : Req) (v : Word) (c : Option Cause) : Out State :=
  let p := replyValue r v c
  match r.op, r.tid with
  | .claim, _ => .next ((s.claimArrives home r v).replyCause r c)
  | .reserve _ _ _ piece id, 0 => .next (s.copyGranted (coreOf r.cid) home r piece id v)
  | _, _ =>
    match s.bayOf r with
    | some i => s.asOut r.cid (fun s => s.topped r (s.done i (((s.setReg r.reg p.1).replyCause r c).taken home r p.2)))
    | none =>
      if s.isLate r then
        let s := (s.onCtx r.cid (fun m => m.unlate r.seq)).replyCause r c
        .next ((s.onCore (coreOf r.cid) (fun k => { k with late := k.late ++ [⟨r.cid, r.seq, r.reg, p.1⟩] })).taken home r p.2)
      else .next (s.taken home r p.2)

/-- A parked or waiting packet's answer has come, and it executes again (R79). -/
def State.answeredWake (s : State) (cid : Nat) : State := s.onCtx cid (fun c => { c with answered := true })

/-- The instruction that a context will execute next, if its word decodes. -/
def State.nextInstr (s : State) (cid : Nat) : Option Instr :=
  match s.fetchWord cid (s.ctx cid).th.pc with
  | none => none
  | some w => (decode w).toOption

/-- A context that parked on a withdrawn instruction waits for the answer to its request (R79, R406). -/
def State.parkedOn (s : State) (r : Req) : Bool :=
  s.asker r && (s.ctx r.cid).run == .parked .reply && (match r.op with
    | .watch | .waita | .bwt _ | .claim => true
    | _ => false)

/-- The home's answer to WATCH, WAITA or BWT reaches the core (R191, R193, R211). -/
def State.answerArrives (s : State) (r : Req) (v : Option Word) : Out State :=
  match s.bayOf r with
  | some i =>
    s.asOut r.cid (fun s =>
      match r.op, i with
      | .watch, .waita .. =>
        .next ((s.tookWatch r.addr v.isSome true).withMe (fun c => { c with bay := none, run := .runnable, ready := false }))
      | .watch, _ => s.topped r (s.done i (s.tookWatch r.addr v.isSome false))
      | .waita, .waita d _ =>
        if v.getD 0 == s.plain d then s.waitaGot i r.addr (v.getD 0) (s.plain d)
        else s.topped r (s.waitaGot i r.addr (v.getD 0) (s.plain d))
      | _, _ => s.topped r (s.done i s))
  | none =>
    if s.parkedOn r then
      let s := s.answeredWake r.cid
      match r.op with
      | .watch =>
        let temp := match s.nextInstr r.cid with
          | some (.waita ..) => true
          | _ => false
        s.asOut r.cid (fun s => .next (s.tookWatch r.addr v.isSome temp))
      | _ => .next s
    else .next s

/-- After an answer, the releases of ATOMs that waited for it go (R189). -/
def andReleases (core : Nat) (o : Out State) : Out State :=
  match o with
  | .next s => .next (s.releasesDue core)
  | o => o

/-- LATE_VALUE_RETURN (R75, R179, R401): a reply reaches its core; its delay field is added to an accumulator. -/
def execLateValueReturn (n : Nat) (delay : BitVec 16) (s : State) : Out State :=
  match s.msgAt n with
  | some ⟨src, _, .reply r v c⟩ =>
    let s := (s.dropMsg n).profReply src r delay
    let s := match r.op with
      | .load .. => s.fill r src
      | _ => s
    andReleases (coreOf r.cid) (s.valueArrives src r v c)
  | some ⟨src, _, .answer r v⟩ => ((s.dropMsg n).profReply src r delay).answerArrives r v
  | _ => .next s

/-- LATE_VALUE_LAND (R76): the late value that entered first reaches the foot, and the packets that wait for it garner it
on its way. -/
def execLateValueLand (core : Nat) (s : State) : Out State :=
  match (s.core core).late with
  | [] => .next s
  | l :: rest =>
    let s := s.onCore core (fun c => { c with late := rest })
    match l.reg with
    | none => .next s
    | some r =>
      let s := if (s.ctx l.cid).takesLate l.seq r then s.noteResult l.cid l.seq (.g r) (.ordinary l.value) true
        else s.noteMeeting l.cid l.seq (.g r) (.ordinary l.value) true
      .next (s.onCtx l.cid (fun c =>
        let c := c.landLate l.seq r l.value
        { c with injected := meetAll c.injected (.g r) l.seq (.ordinary l.value) true }))

/-- Requests whose packet leaves stage 6 late (R75). -/
def ReqOp.leaves : ReqOp → Bool
  | .load .. | .ldf | .ldff | .reserve .. | .arv _ _ false => true
  | _ => false

/-- LEAVE_LATE (R75, R182, R189): the packet in the bay leaves with a late marker. -/
def execLeaveLate (cid : Nat) (s : State) : Out State :=
  match (s.ctx cid).bay with
  | none => .next s
  | some (i, r) =>
    if r.op.leaves then
      s.asOut cid (fun s =>
        s.topped r (s.done i ((s.leaveLate r).withMe (fun c => { c with barred := if isAcquire i then some r.seq else c.barred }))))
    else .next s

/-! ### Acknowledgements, refusals, faults -/

/-- A posted operation has been reported as faulted and is not settled: it stays in UNACK (R221). -/
def Ctx.reported (c : Ctx) (r : Req) : Bool :=
  c.faults.any (fun f => f.op == .req r) || List.any c.th.score (fun (e : Nat × Score) => !e.2.settled && e.2.f.op == .req r)

/-- A posted global store of a line that still awaits its write-back's answer. -/
def Ctx.awaitsLine (c : Ctx) (line : Nat) (r : Req) : Bool :=
  r.key / 32 == line / 32 && !isPad r.addr && (match r.op with | .store .. => true | _ => false) && !c.reported r

/-- Drops the first n of a list that a test accepts. -/
def dropFirst (ok : Req → Bool) : Nat → List Req → List Req
  | 0, l => l
  | _, [] => []
  | n + 1, r :: rest => if ok r then dropFirst ok n rest else r :: dropFirst ok (n + 1) rest

/-- The acknowledged operations leave UNACK: every store of a write-back, or the one operation. -/
def Ctx.acked (c : Ctx) (r : Req) (n : Nat) : Ctx :=
  match r.op with
  | .store .. => if isPad r.addr then c.unpost r else { c with posted := dropFirst (c.awaitsLine r.key) n c.posted }
  | _ => c.unpost r

/-- ACKNOWLEDGEMENT_ARRIVAL (R177, R401). -/
def execAcknowledgementArrival (n : Nat) (delay : BitVec 16) (s : State) : Out State :=
  match s.msgAt n with
  | some ⟨src, _, .ack r k c⟩ =>
    let s := (s.dropMsg n).profReply src r delay
    if isHostCid r.cid then .next (s.hostDone r true)
    else
      let s := match r.op with
        | .prefetch => s.fill r src
        | _ => s
      if s.asker r then .next (((s.onCtx r.cid (fun x => x.acked r k)).replyCause r c).releasesDue (coreOf r.cid))
      else .next (s.releasesDue (coreOf r.cid))
  | _ => .next s

/-- REQUEST_REFUSED (R186). -/
def execRequestRefused (n : Nat) (s : State) : Out State :=
  match s.msgAt n with
  | some ⟨src, _, .refuse r⟩ => .next ((s.dropMsg n).refusedReq src r)
  | _ => .next s

/-- Takes the first refused request that has been told of its refusal and is not parked. -/
def takeResend : List (Req × Resend) → Option (Req × Resend) × List (Req × Resend)
  | [] => (none, [])
  | e :: rest =>
    if e.2.parked || !e.2.told then
      let r := takeResend rest
      (r.1, e :: r.2)
    else (some e, rest)

/-- REQUEST_RESEND (R186). -/
def execRequestResend (core : Nat) (s : State) : Out State :=
  match takeResend (s.core core).resends with
  | (none, _) => .next s
  | (some e, rest) => .next ((s.onCore core (fun c => { c with resends := rest })).send core e.2.dst (.req e.1))

/-- The faults that a home's report stands for: one per store of a write-back (R221, R237). -/
def State.faultedOps (s : State) (r : Req) : List Req :=
  if !s.asker r then []
  else match r.op with
    | .store _ n => if isPad r.addr then [r] else (((s.ctx r.cid).posted.filter ((s.ctx r.cid).awaitsLine r.key)).take n)
    | _ => if (s.ctx r.cid).posted.any (sameReq r) || (s.ctx r.cid).lates.contains r.seq then [r] else []

/-- What a faulted request leaves behind: a claim that is not made, an ATOM without a release. -/
def State.failedReq (s : State) (r : Req) : State :=
  match r.op with
  | .claim => s.onThread r.tid (fun t => t.claimDone r none)
  | .reserve .. => s.atomAnswered r none
  | _ => s

/-- A fault reported to a packet that still stands at stage 6 (R183, R406): precise where its core's own slate group cannot give
the word or no page maps it, for an instruction that leaves late; else late. For the others it is precise. The packet carries a
precise cause to its boundary. -/
def State.bayFaults (s : State) (i : Instr) (r : Req) (fc : Nat) (recon : Bool) : Out State :=
  if r.op.leaves then
    if recon then .next (s.carry .reconstruct r.addr)
    else if fc = 0 then .next (s.carry .pageFault r.addr)
    else s.topped r (s.done i ((s.leaveLate r).lateFault r fc))
  else .next (s.carry (if recon && r.op == .claim then .reconstruct else fcCause fc) r.addr)

/-- LATE_FAULT_REPORT (R183, R221, R406): a packet still in the bay raises what is precise there, or leaves late; a context parked
on an instruction that waits for the answer executes it again; an operation that has retired gives a late fault. -/
def execLateFaultReport (n : Nat) (s : State) : Out State :=
  match s.msgAt n with
  | some ⟨src, _, .fault r fc recon⟩ =>
    let s := s.dropMsg n
    if isHostCid r.cid then .next (s.hostDone r false)
    else
      let s := s.failedReq r
      match s.bayOf r with
      | some i => s.asOut r.cid (fun s => s.bayFaults i r fc (recon && src == s.here))
      | none =>
        if s.parkedOn r then .next (s.answeredWake r.cid)
        else .next ((s.faultedOps r).foldl (fun s q => s.lateFault q fc) s)
  | _ => .next s

/-- WCB_SEND (R237): the oldest write-combining entry is due. -/
def execWcbSend (core : Nat) (s : State) : Out State := .next (s.flushOldest core)

/-! ### Copies of lines (R238, R246, R249, R258) -/

/-- The home's directory no longer lists a sharer of a line. -/
def State.unshare (s : State) (h line code : Nat) : State :=
  s.onCore h (fun c => match c.dir.find line with
    | some d => { c with dir := c.dir.set line { d with sharers := d.sharers.filter (fun x => x != code) } }
    | none => c)

/-- INVALIDATION (R238, R258): the sharer drops its copy and acknowledges; the home's directory and, for a store to the
invalidate window (R248), the count of context 0 see the acknowledgement, and a write that waited for it is performed. -/
def execInvalidation (n : Nat) (s : State) : Out State :=
  match s.msgAt n with
  | some ⟨_, _, .inval line owner code window⟩ =>
    let s := (((s.dropMsg n).purgeSharer code line).unshare owner line code)
    let s := if window then
        s.onCtx (owner * 16) (fun c => match c.posted.find? (fun p => p.key == line && p.op == .store [] 1) with
          | some p => { c with posted := c.posted.erase p }
          | none => c)
      else s
    .next ((s.homesGo owner).releasesDue owner)
  | _ => .next s

/-- REPLICA_DROP (R246): a replica slice drops a line with the L1 copies it supplied, and tells the line's home. -/
def execReplicaDrop (die line : Nat) (s : State) : Out State :=
  if (s.replica die line).isSome then
    let s := s.purgeSharer (replicaCode die) line
    match List.find? (fun (e : Nat × Core) => (dirOf e.2 line).sharers.contains (replicaCode die)) s.cores with
    | some e => .next (s.send (replicaCore die line) e.1 (.drop line die))
    | none => .next s
  else .next s

/-- DROP_NOTICE (R246): the home takes the replica die off the line's sharers, unless it holds the line again. -/
def execDropNotice (n : Nat) (s : State) : Out State :=
  match s.msgAt n with
  | some ⟨_, h, .drop line die⟩ =>
    let s := s.dropMsg n
    if (s.replica die line).isSome then .next s else .next ((s.unshare h line (replicaCode die)).homesGo h)
  | _ => .next s

/-- BACK_INVALIDATION_ACK (R249): the host has given up its copy; the write that the home held can be performed. -/
def execBackInvalidationAck (n : Nat) (s : State) : Out State :=
  match s.msgAt n with
  | some ⟨src, _, .backInval line⟩ =>
    .next ({ s.dropMsg n with hostLines := s.hostLines.filter (fun l => l != line) }.homesGo src)
  | _ => .next s

end Sys2Proof.Machine
end

