-- ==== Sys2Proof/Machine/Pipe.lean ====
section
/-! DEFINITION. The pipe's own steps: when a waiting context goes on (R79), what a boundary takes (R91, R215), turns and
injection (R62, R63, R70, R82, R176), retirement and draining (R77), fetch (R85), withdrawal and kill waves (R79 to R81). -/

namespace Sys2Proof.Machine

open Sys2Proof

/-! ### Wake conditions (R79) -/

/-- A limit of WAIT as its field. -/
def limit4 (n : Nat) : BitVec 4 := BitVec.ofNat 4 n

/-- The message of a context's SEND or TSEND has been accepted (R201). -/
def State.msgAccepted (s : State) (cid : Nat) (q : BitVec 8) (x : Word) : Bool :=
  let mine (r : Req) : Bool := r.cid == cid && r.seq == q && r.addr == x
  !((s.core (coreOf cid)).msgResends.any (fun m => mine m.r))
    && !(s.net.any (fun m => match m.body with
      | .send r _ _ _ => mine r
      | .timed r _ _ => mine r
      | _ => false))

/-- The 64-byte block of a context's next word, as an address-space key. -/
def State.blockOf (s : State) (cid : Nat) : Nat := (s.asnOf cid * 2 ^ 48 + (s.ctx cid).fetchPc.toNat) / 64

/-- The condition of a wait holds. -/
def State.waitOver (s : State) (cid : Nat) (w : Wait) : Bool :=
  let c := s.ctx cid
  let k := s.core (coreOf cid)
  match w with
  | .operand r => (c.view r).isSome
  | .lanes a b d => s.lanesReady cid a b d
  | .energy n => s.affords cid n
  | .reply => c.answered || c.th.nest.claims.any (fun q => q.pc == c.th.pc && q.out.isSome)
  | .watch => c.ready
  | .counts l t cp m => s.countsMet cid (limit4 l) (limit4 t) (limit4 cp) (limit4 m)
  | .posted => decide (c.unack < Config.unackMax)
  | .late => decide (c.outld < Config.outldMax)
  | .ordered => c.barred.isNone
  | .fence => ({ s with cur := cid }.releaseWait .pk).isNone
  | .drained => s.drained cid
  | .vspace => decide (k.vq.length < Config.vqueueMax)
  | .cspace => s.copyRoom cid
  | .mspace p => k.mxRoom p
  | .vrecord => decide (s.vrecords cid < Config.laneMax)
  | .vdone => s.outv cid == 0
  | .siding div => if div then decide (k.divLoad ≤ Config.divQueueMax) else { s with cur := cid }.mulFree
  | .durable => (c.th.pendingPush.map s.pushDurable).getD true
  | .activity h => s.acteReady h
  | .time => s.tdeqReady cid
  | .spawn die => s.spawnReady cid die
  | .submit => decide (s.blocksHeld (s.partOf (dieOf (coreOf cid))) < Config.submitMax)
  | .accepted q x => s.msgAccepted cid q x
  | .order h => !s.orderHeld cid h && !s.onWay cid h
  | .align n => s.alignOver cid n
  | .depart .. => s.mayDepart cid
  | .sleep => s.sleepOver cid
  | .ring => s.ringEmpty (coreOf cid)
  | .trace => k.traceIdle
  | .suspend => !c.faults.isEmpty
  | .page x => match s.translate (vkey (s.asnOf cid) x) false with
    | .ok _ => true
    | .error fc => fc != 0
  | .older => c.retiring.isEmpty
  | .fetch => c.fbuf.contains (s.blockOf cid) || (s.cluster (clusterOf (coreOf cid))).icache.contains (s.blockOf cid)
  | .delegation | .restart _ | .divided => false

/-! ### What a boundary takes (R91, R215, R222) -/

/-- An asynchronous event is to be taken (R215, R222). -/
def Ctx.asyncDue (c : Ctx) (cid : Nat) : Bool := !c.asyncs.isEmpty && !c.th.inTrap && (ctxOf cid != 0 || c.th.tvec != 0)

/-- A pre-emption is to be taken: the thread can be held, else the request stays pending (R226, R227). -/
def State.preemptDue (s : State) (cid : Nat) : Bool := (s.ctx cid).preempt && s.mayHold cid

/-- Something is pending that makes a waiting or parked context runnable (R91). -/
def State.pendingAt (s : State) (cid : Nat) : Bool :=
  (s.ctx cid).lateDue || !(s.ctx cid).replies.isEmpty || (s.ctx cid).asyncDue cid || s.preemptDue cid

/-- Waits of a context whose packet can reach no boundary: it stands at the foot, it has begun to perform, or the context has
stopped. -/
def Wait.fixed : Wait → Bool
  | .align _ | .fetch | .divided | .delegation | .restart _ => true
  | _ => false

/-- A waiting or parked context goes on; one whose request waits for its reply first leaves late or is withdrawn. -/
def State.canGo (s : State) (cid : Nat) : Bool :=
  let c := s.ctx cid
  match c.run with
  | .waiting .suspend | .parked .suspend => c.lateDue
  | .waiting w => c.bay.isNone && (s.waitOver cid w || (!w.fixed && s.pendingAt cid))
  | .parked w => s.waitOver cid w || (!w.fixed && s.pendingAt cid)
  | _ => false

/-- Items 1 and 2 of R215: a late fault, else the oldest reply cause. -/
def State.takeFirst (s : State) (cid : Nat) : Option State :=
  let c := s.ctx cid
  if c.lateDue then some (s.takeLateFaults cid)
  else
    match c.replies with
    | [] => none
    | (k, x) :: rest => some ((s.onCtx cid (fun c => { c with replies := rest })).deliver cid k .reply x 0)

/-- The cause of an asynchronous event by its place in the order of R215. -/
def asyncCause (k : Nat) : Cause := if k = 0 then .actAbandoned else if k = 1 then .zeroLookahead else .matrixThreshold

/-- Item 4 of R215. -/
def State.takeAsync (s : State) (cid : Nat) : Option State :=
  let c := s.ctx cid
  if c.asyncDue cid then
    match c.asyncs with
    | [] => none
    | (k, v) :: rest => some ((s.onCtx cid (fun c => { c with asyncs := rest })).deliver cid (asyncCause k) .async v 0)
  else none

/-- Item 6 of R215: the pre-emption is taken; the context suspends once its counts are zero (R226). -/
def State.takePreempt (s : State) (cid : Nat) : Option State :=
  let c := s.ctx cid
  if s.preemptDue cid then
    some (((s.wave cid (c.seqNow - 1) c.th.pc).leaveOrders cid).onCtx cid (fun c => { c with run := .waiting .suspend }))
  else none

/-- A context of a core may take turns: no gang stop, no clock switch, and in a debug stop only the context that the debug
module steps (R229, R389, R393). -/
def State.mayTurn (s : State) (core k : Nat) : Bool :=
  let c := s.core core
  !c.gangStopped && !s.clockStops core && (!c.dbg.stopped || c.dbg.stepping == some k)

/-- A context can reach a boundary: its core runs, every older packet has certified, and none of its packets stands at the foot
or has begun to perform (R91, R229). -/
def State.atBoundary (s : State) (cid : Nat) : Bool :=
  let c := s.ctx cid
  s.mayTurn (coreOf cid) (ctxOf cid) && c.bay.isNone && c.retiring.isEmpty
    && match c.run with
      | .waiting .suspend | .parked .suspend => false
      | .runnable => true
      | .waiting w | .parked w => !w.fixed
      | _ => false

/-- The packet of a context waits for a condition that does not hold, with no precise cause of its own and no comparator that
matches it, so that an event or a pre-emption is the first item at its boundary (R91, R215, R225). -/
def State.idlePacket (s : State) (cid : Nat) : Bool :=
  { s with cur := cid }.bkptNow.isNone
    && match (s.ctx cid).run with
      | .waiting w | .parked w => !s.waitOver cid w
      | _ => false

/-- BOUNDARY (R91, R215): the context takes its first pending item: a late fault or a reply cause at any packet, an event or a
pre-emption in place of a packet that waits. At a packet that has something to do or to raise they are taken as it performs
(`State.perform`). A request whose refusals have parked the context is sent again (R186). -/
def execBoundary (cid : Nat) (s : State) : Out State :=
  if s.atBoundary cid then
    match (s.takeFirst cid).or (if s.idlePacket cid then (s.takeAsync cid).or (s.takePreempt cid) else none) with
    | some t => .next (if (s.ctx cid).run == .parked .watch then t.resendParked (coreOf cid) cid else t)
    | none => .next s
  else .next s

/-- Context 0 of a core can be presented with a delegation at its boundary, once its older packets have certified (R220). Log 81: one
that waits or is parked for anything but its sleep goes on waiting. -/
def State.presentable (s : State) (core : Nat) : Bool :=
  let c := s.ctx (core * 16)
  s.mayTurn core 0 && c.bay.isNone
    && !c.th.inTrap && c.th.tvec != 0 && (s.core core).presented.isNone && !(s.core core).delegq.isEmpty
    && (c.run == .runnable || c.run == .waiting .sleep || c.run == .parked .sleep)

/-- Context 0 is at a boundary where it takes a delegation (R91, R220). -/
def State.mayPresent (s : State) (core : Nat) : Bool := s.presentable core && (s.ctx (core * 16)).retiring.isEmpty

/-- Presents context 0 with the oldest delegation (R216, R220). -/
def State.present (s : State) (core : Nat) : State :=
  match (s.core core).delegq with
  | [] => s
  | d :: rest =>
    let cid := core * 16
    let s := if (s.ctx cid).run == .runnable then s else s.wakeSleep cid
    let depc : BitVec 46 := match d.src with
      | some n => (s.ctx (core * 16 + n)).th.epc
      | none => 0
    let s := s.onCore core (fun c => { c with delegq := rest, presented := some d })
    s.enter cid (causeWord depc (d.src.getD 0) true d.nent d.cls d.cause) d.detail

/-- DELEGATION_PRESENT (R220). -/
def execDelegationPresent (core : Nat) (s : State) : Out State := .next (if s.mayPresent core then s.present core else s)

/-! ### Waking and withdrawal (R79) -/

/-- A waiting or parked context becomes runnable: a parked one fetches its instruction again; one that a refused request has
parked sends that again (R186), and a held ALIGN releases all that hold it (R86). -/
def State.goOn (s : State) (cid : Nat) : State :=
  let c := s.ctx cid
  let s' := s.onCtx cid (fun c => { c with run := .runnable })
  match c.run with
  | .waiting .sleep | .parked .sleep => if s.sleepOver cid then s.wakeSleep cid else s'
  | .parked .watch => s'.resendParked (coreOf cid) cid
  | .parked (.spawn _) => s'.leaveOrders cid
  | .waiting (.align _) => s.alignGo cid
  | _ => s'

/-- CONTEXT_WAKE (R79). -/
def execContextWake (cid : Nat) (s : State) : Out State := .next (if s.canGo cid then s.goOn cid else s)

/-- The kind of a wait as a trace record shows it (R397 gives no codes: the model's own, log 30). -/
def Wait.kind : Wait → Nat
  | .operand _ => 1 | .lanes .. => 2 | .energy _ => 3 | .reply => 4 | .watch => 5 | .counts .. => 6 | .posted => 7 | .late => 8
  | .ordered => 9 | .fence => 10 | .drained => 11 | .vspace => 12 | .cspace => 13 | .mspace _ => 14 | .vrecord => 15
  | .vdone => 16 | .siding _ => 17 | .durable => 18 | .activity _ => 19 | .time => 20 | .spawn _ => 21 | .submit => 22
  | .accepted .. => 23 | .delegation => 24 | .align _ => 25 | .depart .. => 26 | .sleep => 27 | .ring => 28 | .trace => 29
  | .restart _ => 30 | .suspend => 31 | .older => 32 | .order _ => 33 | .fetch => 34 | .divided => 36 | .page _ => 37

/-- A packet that waits may be withdrawn: not one whose request will leave late, a divide that has made its pops, nor a held ALIGN
(R75, R79, R86). -/
def Ctx.withdrawable (c : Ctx) : Option Wait :=
  match c.run with
  | .waiting .suspend => none
  | .waiting w =>
    if w.fixed then none
    else match c.bay with
      | some (_, r) => if r.op.leaves then none else some w
      | none => some w
  | _ => none

/-- The stage at which the packet of a context waits: its own, or stage 10 for one that is to travel from there (R55, R66, R78). -/
def State.waitStage (s : State) (cid : Nat) : Nat :=
  match (s.ctx cid).run with
  | .waiting (.depart _ _ true _) => 10
  | _ => ((s.nextInstr cid).map stageOf).getD 10

/-- WITHDRAW (R79): a kill wave from the packet, and the context parks with its condition. -/
def execWithdraw (cid : Nat) (s : State) : Out State :=
  let c := s.ctx cid
  match c.withdrawable with
  | none => .next s
  | some w =>
    let s := s.note cid 0xD c.seqNow c.th.pc (BitVec.ofNat 64 w.kind) 0
    let s := match w with
      | .spawn die => s.spawnParks cid die
      | _ => s
    .next ((s.wave cid (c.seqNow - 1) c.th.pc (s.waitStage cid)).onCtx cid (fun c => { c with run := .parked w }))

/-- KILL_WAVE_FOOT (R81): the wave launched first reaches the foot. -/
def execKillWaveFoot (cid : Nat) (s : State) : Out State :=
  .next (s.onCtx cid (fun c => match c.waves with
    | [] => c
    | w :: rest => { c with waves := rest }.applyWave w))

/-- ALIGN_RELEASE (R86). -/
def execAlignRelease (cid : Nat) (s : State) : Out State :=
  match (s.ctx cid).run with
  | .waiting (.align n) => .next (if s.alignOver cid n then s.alignGo cid else s)
  | _ => .next s

/-! ### Turns and injection (R62, R63, R70, R82, R176) -/

/-- The first context at or after one, wrapping, that a test accepts. -/
def nextReady (ok : Nat → Bool) (start : Nat) : Option Nat := ((List.range 16).map (fun k => (start + k) % 16)).find? ok

/-- Who takes the turn of a cycle: the slot's own context, else the pointer's choice with the pointer moved on (R62). -/
def pickTurn (cyc spare : Nat) (ok : Nat → Bool) : Option (Nat × Nat) :=
  if ok (cyc % 16) then some (cyc % 16, spare)
  else
    match nextReady ok spare with
    | none => none
    | some k => some (k, (nextReady ok ((k + 1) % 16)).getD k)

/-- The prediction of R82. -/
def predict (i : Instr) (pc : Addr48) : Addr48 :=
  let back (d : BitVec 16) : Addr48 := if d.toInt < 0 then target pc d else nextPc pc
  match i with
  | .beq _ _ d | .bne _ _ d | .blt _ _ d | .bge _ _ d | .bltn _ _ d | .bgen _ _ d => back d
  | .j d | .jal d => target pc d
  | .next d => target pc d
  | _ => nextPc pc

/-- A source slot at injection (R70, R176). -/
def State.fillSlot (s : State) (cid : Nat) (pc : Addr48) (r : Option Reg) : Slot :=
  let c := s.ctx cid
  match r with
  | none => .none
  | some (.g n) =>
    match c.landing.reverse.find? (fun e => e.reg == n) with
    | some e => match e.val with
      | .ordinary v => .fetched (.g n) v (some e.seq)
      | _ => .empty (.g n) e.seq
    | none => match c.awaited.find n.val with
      | some q => .empty (.g n) q
      | none => .fetched (.g n) (c.th.gpr.get n.val 0) none
  | some r =>
    if r.isLaneOrPort then .later r
    else .fetched r ((match r with
      | .ix n => c.th.ix.get n.val 0
      | .wid => c.th.wid
      | .gt => s.gtime (coreOf cid)
      | .pc => ofAddr pc
      | _ => 0)) none

/-- The PRIVILEGE that the foot finds from the word and the context number (R116). -/
def footPrivilege (cid : Nat) (i : Instr) : Bool :=
  match i with
  | .ctxs .. | .ctxr _ | .prmt _ | .scrub .. => ctxOf cid != 0
  | .spawn .. | .migr .. => ctxOf cid == 0
  | .mfs _ r => ctxOf cid != 0 && sysS r.toNat
  | .mts _ r => ctxOf cid != 0 && sysSWrite r.toNat
  | _ => false

/-- The instruction that the next word of a context is, if it is one. -/
def State.nextWord (s : State) (cid : Nat) : Option Instr := (s.fetchWord cid (s.ctx cid).fetchPc).bind (fun w => (decode w).toOption)

/-- The next word is in the fetch buffer, or no page gives one and its packet will say so (R85). -/
def State.inBuffer (s : State) (cid : Nat) : Bool :=
  (s.ctx cid).fbuf.contains (s.blockOf cid) || (s.fetchWord cid (s.ctx cid).fetchPc).isNone

/-- A packet of an instruction may hold a landing entry: its word names a destination register other than zr (R63). -/
def namesDest (i : Option Instr) : Bool :=
  match i.bind (fun i => (slotsOf i).d) with
  | none | some .zr => false
  | some _ => true

/-- The next word is an ALIGN that has not been released (R86). -/
def State.alignNext (s : State) (cid : Nat) : Option Nat :=
  match s.nextWord cid with
  | some (.align n) => if n = 0 || (s.ctx cid).answered then none else some n.toNat
  | _ => none

/-- No packet of a context is in the pipe below its top, and nothing descends. -/
def Ctx.atFoot (c : Ctx) : Bool := c.run == .runnable && c.bay.isNone && c.injected.isEmpty && c.waves.isEmpty

/-- A step of the debug module injects one packet (R393). -/
def State.stepOpen (s : State) (cid : Nat) : Bool :=
  !(s.core (coreOf cid)).dbg.stopped || ((s.ctx cid).injected.isEmpty && (s.ctx cid).retiring.isEmpty)

/-- A NEST or NEXT of the context is in the pipe and has not been performed: the fetcher writes ix0 to ix3 before the next
instruction is injected (R147). -/
def Ctx.nesting (c : Ctx) : Bool :=
  c.injected.any (fun p => p.op.toNat / 2 ^ 26 == 0x1A || p.op.toNat / 2 ^ 26 == 0x1B)

/-- A context of a core is ready to inject (R63, R86, R147, R393); of the thread of a hub, which is at no core, the device's own steps
say what it does (R20; log 46). -/
def State.mayInject (s : State) (cid : Nat) : Bool :=
  let c := s.ctx cid
  isCore (coreOf cid) && c.run == .runnable && c.bay.isNone && c.waves.isEmpty && !c.yielded && !c.nesting && !(c.lates.contains c.seq) && s.stepOpen cid
    && decide (c.injected.length + c.retiring.length < Config.pipeMax)
    && (!(namesDest (s.nextWord cid)) || decide (c.landing.length < Config.landingMax))
    && s.inBuffer cid && (s.alignNext cid).isNone

/-- ENDB as the foot marks it (R87). -/
def State.marksEnd (s : State) (cid : Nat) (pc : Addr48) (i : Option Instr) : Bool :=
  match i with
  | some i => { s with cur := cid }.endsAt i pc
  | none => { s with cur := cid }.bsigAt (nextPc pc)

/-- A context asks its cluster for a block that its buffer does not hold (R85). -/
def State.wantBlock (s : State) (cid b : Nat) : State :=
  let c := s.ctx cid
  if c.fbuf.contains b || c.fwant == some b then s
  else
    let cl := clusterOf (coreOf cid)
    let k := s.cluster cl
    (s.onCtx cid (fun c => { c with fwant := some b })).setCluster cl { k with want := k.want ++ [(cid, b)] }

/-- A packet that the foot injects (R67, R70): the sources are filled; a word that is no instruction, one that the context may not
execute, and an address that no page maps carry their cause. -/
def State.packetAt (s : State) (cid : Nat) (pc : Addr48) : Packet :=
  let c := s.ctx cid
  let w := s.fetchWord cid pc
  let d := w.bind (fun w => (decode w).toOption)
  let q := (d.map slotsOf).getD ⟨none, none, none, none⟩
  let cause := match w, d with
    | none, _ => some Cause.pageFault
    | some _, none => some .illegal
    | some _, some i => if footPrivilege cid i then some .privilege else none
  ⟨c.seq, pc, w.getD 0, s.fillSlot cid pc q.a, s.fillSlot cid pc q.b, s.fillSlot cid pc q.c, q.d, 0,
    if (q.d.bind gReg).isSome then .pending else .none, cause, 0, [], s.marksEnd cid pc d⟩

/-- INJECTS the next word of a context (R70): its destination reserves a landing entry (R176), the block behind its own is asked
for, and after a predicted jump the target's (R82, R85). Log 82: a port as destination reserves no landing entry, since its
result never lands. -/
def State.inject (s : State) (cid : Nat) : State :=
  let c := s.ctx cid
  let pc := c.fetchPc
  let p := s.packetAt cid pc
  let s := s.note cid 0x8 c.seq pc (p.op.zeroExtend 64) 0
  let b := s.blockOf cid
  let s := s.onCtx cid (fun c =>
    { c with
      injected := c.injected ++ [p]
      landing := match p.dreg.bind gReg with
        | some r => c.landing ++ [⟨c.seq, r, .reserved, false⟩]
        | none => c.landing
      seq := c.seq + 1
      fetchPc := match p.cause with
        | some .pageFault => nextPc pc
        | _ => ((decode p.op).toOption.map (fun i => predict i pc)).getD (nextPc pc) })
  if p.cause == some .pageFault then s else (s.wantBlock cid (b + 1)).wantBlock cid (s.blockOf cid)

/-- One cycle of a cluster's clock passes for its copy of GTIME (R388). -/
def Cluster.beat (k : Cluster) : Cluster :=
  let f := k.frac + k.inc
  { k with ns := k.ns + BitVec.ofNat 64 (f / 2 ^ 32), frac := f % 2 ^ 32 }

/-- A core that runs ahead of its cluster takes the cluster's clock with it, and the furthest copy goes ahead with it; hub W sends a beat
every 4,096 ns of it (R388). -/
def State.clock (s : State) (core : Nat) : State :=
  let n := (s.core core).cyc
  let cl := clusterOf core
  if (coresOfCluster cl).all (fun c => c == core || decide ((s.core c).cyc ≤ n)) then
    let k := { s.cluster cl with ns := s.copyNs cl }.beat
    let now := BitVec.ofNat 64 (max s.now.toNat k.ns.toNat)
    { s.setCluster cl k with now := now, beat := if now.toNat / 4096 == s.now.toNat / 4096 then s.beat else some now }
  else s

/-- No core of a core's die has come further than it. -/
def State.leads (s : State) (core : Nat) : Bool :=
  let n := (s.core core).cyc
  List.all s.cores (fun (e : Nat × Core) => dieOf e.1 != dieOf core || decide (e.2.cyc ≤ n))

/-- The context-cycles of a core's cycle: those of its launches, and of the whole die as its leading core goes on (R403; log 85). -/
def State.occupied (s : State) (core : Nat) : State :=
  let ls := ((launchCtxs core).filter (fun cid => (s.ctx cid).occupied)).map (fun cid => (s.ctx cid).th.launch)
  let n := if s.leads core then 6144 else 0
  s.onDie (dieOf core) (fun d =>
    { d with cycles := d.cycles + n, occ := ls.foldl (fun t l => t.set l (t.get l 0 + 1)) d.occ })

/-- One more cycle in which a task has been queued (R43). -/
def Task.waits (t : Task) : Task := { t with spent := t.spent + 1 }

/-- A core that runs ahead of its die takes the time of the die's ready queue with it, and of the tasks stolen from it that are on
their way (R43). -/
def State.queueTime (s : State) (core : Nat) : State :=
  let die := dieOf core
  if s.leads core then
    { s.onDie die (fun d => { d with queue := d.queue.map Task.waits }) with
      net := s.net.map (fun m => match m.body with
        | .stolen thief ts => if m.src == schedOf die then { m with body := .stolen thief (ts.map Task.waits) } else m
        | _ => m) }
  else s

/-- One cycle of a core passes: its counter and its clock, its occupied context-cycles, the time of the queue, and the slot that
has passed is open again after a YIELD (R43, R62, R152, R388, R403). -/
def State.cycle (s : State) (core : Nat) : State :=
  let n := (s.core core).cyc
  let s := ((s.clock core).occupied core).queueTime core
  let cid := core * 16 + n % 16
  (if (s.ctx cid).yielded then s.onCtx cid (fun c => { c with yielded := false }) else s).onCore core
    (fun c => { c with cyc := c.cyc + 1 })

/-- The foot of a core in a cycle (R62, R86): contexts whose next word is an ALIGN hold it, and the context whose turn it is
injects. -/
def State.footTurn (s : State) (core : Nat) : State :=
  let s := (List.range 16).foldl (fun s k =>
    let cid := core * 16 + k
    if s.mayTurn core k && (s.ctx cid).atFoot then ((s.alignNext cid).map (s.alignHold cid)).getD s else s) s
  let c := s.core core
  match pickTurn c.cyc c.spare (fun k => s.mayTurn core k && s.mayInject (core * 16 + k)) with
  | none => s
  | some (k, sp) => (s.inject (core * 16 + k)).onCore core (fun c => { c with spare := sp })

/-- ISSUE_TURN (R62, R389): a cycle of the foot of a core passes, unless its clock stands. -/
def execIssueTurn (core : Nat) (s : State) : Out State := .next (if s.clockStops core then s else (s.footTurn core).cycle core)

/-! ### Retirement (R77) -/

/-- A step of the debug module ends when a packet of its context has retired (R393). -/
def State.stepDone (s : State) (cid : Nat) : State :=
  let core := coreOf cid
  if (s.core core).dbg.stepping == some (ctxOf cid) then s.debugStop core 4 (ctxOf cid) else s

/-- The oldest packet of a context retires, if one is at the top; in a step of the debug module the core then stops again (R77,
R393). -/
def State.retireStep (s : State) (cid : Nat) : State :=
  if (s.ctx cid).retiring.isEmpty then s else (s.retire cid).stepDone cid

/-- RETIRE (R77): the oldest packet at stage 11 retires. -/
def execRetire (cid : Nat) (s : State) : Out State := .next (s.retireStep cid)

/-- Drains contexts in turn order, at most n entries. -/
def State.drainSome (s : State) (core : Nat) : Nat → List Nat → State
  | 0, _ => s
  | _, [] => s
  | n + 1, k :: rest =>
    match (s.ctx (core * 16 + k)).drainOne with
    | some c => State.drainSome (s.setCtx (core * 16 + k) c) core n rest
    | none => State.drainSome s core (n + 1) rest

/-- At most one entry per context and four per core drain, in turn order (R77). -/
def State.drainCycle (s : State) (core : Nat) : State :=
  s.drainSome core 4 ((List.range 16).map (fun k => ((s.core core).cyc + k) % 16))

/-- LANDING_DRAIN (R77): the certified entries of a core drain for a cycle. -/
def execLandingDrain (core : Nat) (s : State) : Out State := .next (s.drainCycle core)

/-! ### The multiply and divide siding (R136, R137) -/

/-- MULTIPLY_DONE (R136): three cycles after it started, the multiplier is free again. -/
def execMultiplyDone (core : Nat) (s : State) : Out State :=
  .next (s.onCore core (fun c => if (c.mul.map (fun t => decide (t ≤ c.cyc))).getD true then { c with mul := none } else c))

/-- The value of a divide is ready: a late one enters at stage 11, one toward a port is pushed into the place held for it and its
packet leaves the bay; of a packet that is gone it is discarded (R137 to R139). -/
def State.divided (s : State) (d : DivOp) : Out State :=
  let c := s.ctx d.cid
  let mine := c.th.tid == d.tid
  let awaited := mine && c.lates.contains d.seq
  match d.use with
  | .written => .next s
  | .dropped => .next (if awaited then s.onCtx d.cid (fun c => c.unlate d.seq) else s)
  | .push i dir =>
    s.asOut d.cid (fun s =>
      if mine && s.me.run == .waiting .divided && s.seqNow == d.seq then
        s.done i ((s.withMe (fun c => { c with run := .runnable })).sendWord dir d.value)
      else .next (s.dropPlace dir))
  | .late =>
    if awaited then
      .next ((s.onCtx d.cid (fun c => c.unlate d.seq)).onCore (coreOf d.cid) (fun c =>
        { c with late := c.late ++ [⟨d.cid, d.seq, d.reg, d.value⟩] }))
    else .next s

/-- DIVIDE_DONE (R137): the divider's operation ends in its cycle. -/
def execDivideDone (core : Nat) (s : State) : Out State :=
  match (s.core core).divq with
  | [] => .next s
  | d :: rest =>
    if d.due ≤ (s.core core).cyc then andReleases core ((s.onCore core (fun c => { c with divq := rest })).divided d) else .next s

/-! ### Fetch (R85) -/

/-- The place of a context among the 128 of its cluster. -/
def fetchPlace (cluster cid : Nat) : Nat := (coresOfCluster cluster).idxOf (coreOf cid) * 16 + ctxOf cid

/-- The request that the port serves: of those whose block the instruction cache holds, the first at or after the next context's
place, wrapping (R85). -/
def Cluster.nextFetch (k : Cluster) (cluster : Nat) : Option (Nat × Nat) :=
  let far (e : Nat × Nat) : Nat := (fetchPlace cluster e.1 + 128 - k.next) % 128
  (k.want.filter (fun e => k.icache.contains e.2)).foldl (fun best e => match best with
    | none => some e
    | some b => if far e < far b then some e else some b) none

/-- The port of a cluster serves one block to all who want it (R85). -/
def State.fetchServe (s : State) (cluster : Nat) : State :=
  let k := s.cluster cluster
  match k.nextFetch cluster with
  | none => s
  | some (cid, b) =>
    s.setCluster cluster { k with
      want := k.want.filter (fun e => e.2 != b)
      served := k.served ++ k.want.filter (fun e => e.2 == b)
      next := (fetchPlace cluster cid + 1) % 128 }

/-- FETCH_SERVE (R85): the port serves a block, round robin over the cluster's contexts. -/
def execFetchServe (cluster : Nat) (s : State) : Out State := .next (s.fetchServe cluster)

/-- Served blocks enter the fetch buffers of the contexts that still want them, two blocks each (R85). Log 95: the block
that entered first leaves. -/
def State.fetchFill (s : State) (cluster : Nat) : State :=
  let k := s.cluster cluster
  k.served.foldl (fun s e => s.onCtx e.1 (fun c =>
    if c.fwant == some e.2 then { c with fbuf := (c.fbuf ++ [e.2]).drop (c.fbuf.length - 1), fwant := none } else c))
    (s.setCluster cluster { k with served := [] })

/-- FETCH_FILL (R85): served blocks arrive at the buffers. -/
def execFetchFill (cluster : Nat) (s : State) : Out State := .next (s.fetchFill cluster)

/-- A block enters an instruction cache of 2,048 blocks; the oldest leaves a full one (R25; log 47). -/
def Cluster.cacheBlock (k : Cluster) (b : Nat) : Cluster :=
  if k.icache.contains b then k else { k with icache := (k.icache ++ [b]).drop (k.icache.length + 1 - Config.icacheMax) }

/-- INSTRUCTION_CACHE_FILL (R85): the missing block arrives. -/
def execInstructionCacheFill (cluster block : Nat) (s : State) : Out State :=
  .next (s.setCluster cluster ((s.cluster cluster).cacheBlock block))

/-- A runnable context asks for the block of its next word; where the instruction cache misses it and no packet of the context is
in the pipe, the context waits for it (R85). -/
def State.want (s : State) (cid : Nat) : State :=
  let c := s.ctx cid
  if !isCore (coreOf cid) || c.run != .runnable || s.inBuffer cid then s
  else
    let s := s.wantBlock cid (s.blockOf cid)
    if c.atFoot && !(s.cluster (clusterOf (coreOf cid))).icache.contains (s.blockOf cid) then
      s.onCtx cid (fun c => { c with run := .waiting .fetch })
    else s

/-- A cycle of a cluster's fetch: served blocks arrive, the port serves another, or the first missing one arrives in the
instruction cache. -/
def State.fetchCycle (s : State) (cluster : Nat) : State :=
  let s := s.fetchFill cluster
  let k := s.cluster cluster
  match k.nextFetch cluster, k.want with
  | none, e :: _ => s.setCluster cluster (k.cacheBlock e.2)
  | _, _ => s.fetchServe cluster

end Sys2Proof.Machine
end

