-- ==== Sys2Proof/Machine/Package.lean ====
section
/-! DEFINITION. The package outside its cores: host ports and BAR 0 (R377 to R381, R392, R404), bring-up (R386, R387),
debug (R393), trace (R398, R399), peer links (R383 to R385), clocks and power (R388 to R391), energy (R403). -/

namespace Sys2Proof.Machine

open Sys2Proof

/-! ### Functions (R374) -/

/-- Function n of the model: 0 and 2 are functions 0 and 1 of hub W, 1 and 3 those of hub E; in whole mode only function 0 of
each hub exists. -/
def State.isFn (s : State) (fn : Nat) : Bool := decide (fn < (if s.whole then 2 else 4))

/-- The partition of a function. -/
def State.fnPart (s : State) (fn : Nat) : Nat := if s.whole then 0xFF else fn

/-- A core lies in a function's dies. -/
def State.fnHas (s : State) (fn core : Nat) : Bool := isCore core && (diesOfPart (s.fnPart fn)).contains (dieOf core)

/-- The function whose hub logs the firmware faults of a core (R380); in whole mode function 0 of hub W (log 32). -/
def State.fnOfCore (s : State) (core : Nat) : Nat := if s.whole then 0 else dieOf core / 2

/-- The hub of a function. -/
def hubOfFn (fn : Nat) : Nat := if fn % 2 = 0 then hubW else hubW + 1

/-- How a function's host sees device memory: address space 0 of its partition, under that space's placement table (R379, R404). -/
def State.hostView (s : State) (fn : Nat) : View :=
  ⟨s.fnPart fn, spaceOf (s.fnPart fn) 0, (s.part (s.fnPart fn)).table⟩

/-! ### The management cores and the launch word (R20, R379, R380) -/

/-- The supervisor thread of a hub's package management core: in context 0 of that core, which no core number names (R20). It watches
the launch words of its hub; what else its firmware does, the device's own steps say (log 46). -/
def State.startHub (s : State) (hub : Nat) : State :=
  let (s, t) := s.nameThread { Thread.zero with pc := s.bootFirmware }
  s.onCtx (hub * 16) (fun c => { c.vacated with run := .parked .watch, th := t, fetchPc := t.pc })

/-- The supervisor thread of a hub runs. -/
def State.hubUp (s : State) (hub : Nat) : Bool := (s.ctx (hub * 16)).holdsThread

/-- The thread has read what it watched, and parks on its watch again. -/
def Ctx.watchAgain (c : Ctx) : Ctx := { c with ready := false, run := .parked .watch }

/-- The supervisor thread of the hub, woken by a write of the launch word, reads it: it submits the block, or refuses the value;
with no room for the block the word stays and the thread tries again. -/
def State.readLaunchw (s : State) (fn : Nat) : State :=
  let v := (s.func fn).launchw
  let part := s.fnPart fn
  if v == 0 || v == BitVec.allOnes 64 || !s.hubUp (hubOfFn fn) then s
  else
    match (if bits v 0 8 != 0 || isPad v then none else s.agentKey (s.hostView fn) v false) with
    | none => (s.onFunc fn (fun f => { f with launchw := BitVec.allOnes 64 })).onCtx (hubOfFn fn * 16) Ctx.watchAgain
    | some k =>
      if Config.submitMax ≤ s.blocksHeld part then s
      else
        let p := s.part part
        ((s.setPart part { p with submitted := p.submitted ++ [⟨v, s.hostView fn, s.mem.bytes k 256⟩] }).onFunc fn
          (fun f => { f with launchw := 0 })).onCtx (hubOfFn fn * 16) Ctx.watchAgain

/-- A host write of the launch word, which the thread of its hub watches: performed after the posted writes that the hub received before it
(R249). The thread reads the word in a step of its own. -/
def State.writeLaunchw (s : State) (fn : Nat) (v : Word) : State :=
  match s.agentBehind (postedCid fn) with
  | some h => s.send h h (.req ⟨postedCid fn, 0, 0, none, 0, 0, .launch v, 0⟩)
  | none => s.setLaunchw fn v

/-- LAUNCHW_WRITE (R379). -/
def execLaunchwWrite (fn : Nat) (v : BitVec 64) (s : State) : Out State := .next (if s.isFn fn then s.writeLaunchw fn v else s)

/-! ### Bring-up (R386, R387) -/

/-- A page that an image maps (log 8). -/
def pageFrom (e : Nat × Bool × Nat × Nat × BitVec 5) : Page :=
  let f := e.2.2.2.2
  ⟨e.1, e.2.1, e.2.2.1, e.2.2.2.1, f.getLsbD 0, f.getLsbD 1, f.getLsbD 2, f.getLsbD 3, f.getLsbD 4⟩

/-- A placement range that an image sets up (log 8). -/
def rangeFrom (e : Nat × Nat × Nat × BitVec 8 × BitVec 2) : Range :=
  ⟨e.1, e.2.1, e.2.2.1, e.2.2.2.1, e.2.2.2.2.getLsbD 0, e.2.2.2.2.getLsbD 1⟩

/-- What firmware sets up from its image (R374, R382, R386, R391; log 8); a device of the peer table has four ports at most. -/
def State.bringUp (s : State) (img : List (Nat × Word)) : State :=
  let parts := if Config.freeWhole img then [0xFF] else [0, 1, 2, 3]
  let s := parts.foldl (fun s p => s.setPart p ⟨[], 0, (Config.freeTable img p).map rangeFrom⟩) s
  let s := (List.range 8).foldl (fun s d => s.onDie d (fun x => { x with limitAmps := Config.freeLimit img d })) s
  { s with
    whole := Config.freeWhole img
    bootFirmware := Config.freeEntry img
    pages := (Config.freePages img).map pageFrom
    mem := (Config.freeCode img).foldl (fun m e => m.write (globalBase + e.1) e.2) s.mem
    device := Config.freeDevice img
    peers := (Config.freePeers img).map (fun e => (e.1, e.2.take 4)) }

/-- BOOT as every function shows it. -/
def State.setBoot (s : State) (st err : BitVec 4) : State :=
  (List.range 4).foldl (fun s fn => s.onFunc fn (fun f => { f with bootSt := st, bootErr := err })) s

/-- The device's firmware runs. -/
def State.booted (s : State) : Bool := (s.func 0).bootSt == 3

/-- The host writes BOOT.STATE 0x1, where the root of trust awaits an image or has refused one. -/
def State.stageBoot (s : State) (fn : Nat) : State :=
  if fn == 0 && ((s.func 0).bootSt == 0 || (s.func 0).bootSt == 0xF) then s.setBoot 1 0 else s

/-- The next act of the root of trust: it begins to check a staged image, and then the image runs or is refused (R386). -/
def State.trust (s : State) : State :=
  let img := (s.func 0).staging
  if (s.func 0).bootSt = 1 then s.setBoot 2 0
  else if (s.func 0).bootSt = 2 then
    let err := Config.freeVerdict img
    if err = 0 then (((s.setBoot 3 0).bringUp img).startHub hubW).startHub (hubW + 1) else s.setBoot 0xF err
  else s

/-- BOOT_IMAGE_STAGED (R386). -/
def execBootImageStaged (fn : Nat) (s : State) : Out State := .next (s.stageBoot fn)

/-- Context 0 of a core starts at the firmware's entry, with no delegation in its handler; those that wait are presented anew
(R220, R222, R380, R386). Log 100: the one that it was handling is dropped. -/
def State.startFirmware (s : State) (core : Nat) : State :=
  let (s, t) := s.nameThread { Thread.zero with pc := s.bootFirmware }
  (s.onCtx (core * 16) (fun c => { c.vacated with run := .runnable, fetchPc := t.pc, th := t })).onCore core (fun c =>
    { c with presented := none })

/-- UNIT_READY (R386, R390): a unit sets its READY bit; a die's supervisor firmware runs in context 0 of its cores, a peer port is
up. The host ports wait for no image. A die that a thermal trip has powered off comes back with POWER_UP alone. -/
def execUnitReady (k : Nat) (s : State) : Out State :=
  if (!s.booted && decide (k < 48)) || decide (50 ≤ k) || s.ready.getLsbD k || (decide (16 ≤ k) && s.offDies.contains (k - 16)) then .next s
  else
    let s := { s with ready := s.ready ||| (1#50 <<< k) }
    if 16 ≤ k && k < 24 then .next ((coresOfDie (k - 16)).foldl (fun s c => s.startFirmware c) s)
    else if 24 ≤ k && k < 48 then .next (s.setPeer (k - 24) { PeerPort.zero with up := true })
    else .next s

/-- POWER_UP (R386): everything starts from the root of trust's ROM. -/
def execPowerUp (s : State) : Out State := .next { State.reset with agenda := s.agenda }

/-- FIRMWARE_STAGING_WRITE (R377): refused once boot has completed. -/
def execFirmwareStagingWrite (fn off : Nat) (data : BitVec 64) (s : State) : Out State :=
  if s.booted || decide (2 ^ 22 ≤ off) then .next s
  else .next (s.onFunc fn (fun f => { f with staging := Tab.set f.staging off data }))

/-- ATTESTATION_REQUEST (R387). -/
def execAttestationRequest (fn : Nat) (req : BitVec 64) (s : State) : Out State :=
  .next (if s.isFn fn then s.onFunc fn (fun f => { f with report := some (Config.freeReport req) }) else s)

/-! ### Firmware faults (R378, R380) -/

/-- FIRMWARE_FAULT (R380): the fault is logged, MSI-X vector 0 is raised, and context 0 starts again. -/
def execFirmwareFault (core : Nat) (s : State) : Out State :=
  match (s.ctx (core * 16)).run with
  | .parked (.restart code) | .waiting (.restart code) =>
    let fn := s.fnOfCore core
    let s := (s.onFunc fn (fun f => { f with fwfault := f.fwfault ++ [(core, BitVec.ofNat 6 code)] })).msix fn
    .next (s.startFirmware core)
  | _ => .next s

/-- FWFAULT_READ (R378): the oldest entry, 0 when there is none. -/
def execFwfaultRead (fn : Nat) (s : State) : Out State :=
  if s.isFn fn then
    match (s.func fn).fwfault with
    | [] => .next (s.answerHost fn 0 false)
    | (core, code) :: rest =>
      .next ((s.onFunc fn (fun f => { f with fwfault := rest })).answerHost fn
        (BitVec.ofNat 64 (core * 2 ^ 52 + code.toNat)) false)
  else .next s

/-! ### Host messages (R381) -/

/-- A write of HMDATA queues a message, or discards and counts it. -/
def State.writeHmdata (s : State) (fn : Nat) (v : Word) : State :=
  let f := s.func fn
  let tgt := bits f.hmdest 0 12
  if f.hmq.length < Config.hostMsgMax && bits f.hmdest 24 8 == 0 && s.fnHas fn tgt then
    s.setFunc fn { f with hmdata := v, hmq := f.hmq ++ [⟨f.hmdest, v, 0⟩] }
  else s.setFunc fn { f with hmdata := v, hmdrop := sat32 f.hmdrop }

/-- HMDATA_WRITE (R381). -/
def execHmdataWrite (fn : Nat) (v : BitVec 64) (s : State) : Out State := .next (if s.isFn fn then s.writeHmdata fn v else s)

/-- A message of a function to a core is on its way. -/
def State.hostSending (s : State) (fn core : Nat) : Bool :=
  s.net.any (fun m => match m.body with
    | .send r _ _ _ => r.cid == hostCid + fn && m.dst == core
    | _ => false)

/-- A function's message leaves its queue for its core. -/
def State.hostSend (s : State) (fn : Nat) (x : HostMsg) : State :=
  let hub := hubOfFn fn
  let r : Req := ⟨hostCid + fn, 0, 0, none, x.dest, 0, .msg, x.delay⟩
  let m : Rec := ⟨header hub 0 6 0 (bits x.dest 16 8) (bits x.dest 32 32), x.data⟩
  (s.onFunc fn (fun f => { f with hmq := f.hmq.erase x })).send hub (bits x.dest 0 12) (.send r (bits x.dest 12 4) 0 m)

/-- HOST_MESSAGE_SEND (R381): the hub sends the first message of the queue for whose core none is on its way, so that a refused one
goes again before any later one to the same core. -/
def execHostMessageSend (fn : Nat) (s : State) : Out State :=
  match (s.func fn).hmq.find? (fun x => !s.hostSending fn (bits x.dest 0 12)) with
  | none => .next s
  | some x => .next (if s.isFn fn then s.hostSend fn x else s)

/-- HMDROP_READ (R381). -/
def execHmdropRead (fn : Nat) (s : State) : Out State :=
  .next (if s.isFn fn then
    (s.answerHost fn ((s.func fn).hmdrop.zeroExtend 64) false).onFunc fn (fun f => { f with hmdrop := 0 }) else s)

/-! ### Host accesses to device memory (R249, R404) -/

/-- The memory key of a BAR 2 offset, when the access can be performed: its home is in the table, on a route that is not severed, and
translates it (R373, R404). -/
def State.hostKey (s : State) (fn : Nat) (off : Word) (write : Bool) : Option Nat :=
  let v := s.hostView fn
  if !(s.isFn fn) || isPad off then none
  else
    match homeWith s ((diesOfPart v.part).headD 0) v.ranges off with
    | none => none
    | some h => if s.severed (hubOfFn fn) h then none else s.agentKey v off write

/-- A write of a function's host at a memory key. -/
def State.hostStore (s : State) (cid fn : Nat) (off : Word) (k : Nat) (bs : List Byte) : Option State :=
  s.agentStore cid (vkey (s.hostView fn).space off) k bs

/-- HOST_POSTED_WRITE (R404). -/
def execHostPostedWrite (fn : Nat) (off : BitVec 64) (size : Nat) (data : BitVec 64) (s : State) : Out State :=
  match (s.hostKey fn off true).bind (fun k => s.hostStore (postedCid fn) fn off k (leBytes size data.toNat)) with
  | some s => .next s
  | none => .next (if s.isFn fn then (s.hostBad fn off).msix fn else s)

/-- CXL_MEM_WRITE (R249, R404): completes to the host once it is performed, or with an error completion when it is not. -/
def execCxlMemWrite (fn : Nat) (off : BitVec 64) (size : Nat) (data : BitVec 64) (s : State) : Out State :=
  match s.hostKey fn off true with
  | none => .next (if s.isFn fn then (s.hostBad fn off).answerHost fn 0 true else s)
  | some k =>
    match s.hostStore (cxlCid fn) fn off k (leBytes size data.toNat) with
    | none => .next ((s.hostBad fn off).answerHost fn 0 true)
    | some s' => .next (if s.agentFree (cxlCid fn) k size then s'.answerHost fn 0 false else s')

/-- HOST_READ (R249, R404): the value, or poisoned data of all ones; the host may keep the line of a page that it shares. -/
def execHostRead (fn : Nat) (off : BitVec 64) (size : Nat) (s : State) : Out State :=
  match s.hostKey fn off false with
  | none => .next (if s.isFn fn then (s.hostBad fn off).answerHost fn (BitVec.ofNat 64 (2 ^ (8 * size) - 1)) true else s)
  | some k =>
    let s := s.answerHost fn (BitVec.ofNat 64 (s.mem.nat k size)) false
    let keep := match s.pageOf (vkey (s.hostView fn).space off) with
      | some p => p.hostMem
      | none => false
    .next (if keep && !s.hostLines.contains (lineOf k) then { s with hostLines := s.hostLines ++ [lineOf k] } else s)

/-- HBADW_READ (R404). -/
def execHbadwRead (fn : Nat) (s : State) : Out State :=
  .next (if s.isFn fn then
    (s.answerHost fn ((s.func fn).hbadw.zeroExtend 64) false).onFunc fn (fun f => { f with hbadw := 0 }) else s)

/-! ### The debug module (R392, R393) -/

/-- The core whose debug module a function reaches: DBGSEL, when its die is the function's (R392). -/
def State.dbgCore (s : State) (fn : Nat) : Option Nat :=
  let core := (s.func fn).dbgsel.toNat
  if s.fnHas fn core then some core else none

/-- DBGSEL_WRITE (R392). -/
def execDbgselWrite (fn : Nat) (v : BitVec 64) (s : State) : Out State :=
  .next (if s.isFn fn && s.fnHas fn (bits v 0 12) then s.onFunc fn (fun f => { f with dbgsel := v.truncate 12 }) else s)

/-- A stop that DBGCTL asks for (R393). -/
def State.dbgStop (s : State) (core : Nat) : State :=
  if (s.core core).dbg.stopped && (s.core core).dbg.stepping.isNone then s else s.debugStop core 1 0
/-- A resumption (R393). -/
def State.dbgResume (s : State) (core : Nat) : State :=
  s.onCore core (fun c => { c with dbg := { c.dbg with stopped := false, stepping := none } })
/-- A step of one context (R393). -/
def State.dbgStep (s : State) (core ctx : Nat) : State :=
  s.onCore core (fun c => { c with dbg := { c.dbg with stepping := if c.dbg.stopped then some ctx else none } })

/-- DEBUG_STOP (R393). -/
def execDebugStop (core : Nat) (s : State) : Out State := .next (s.dbgStop core)
/-- DEBUG_RESUME (R393). -/
def execDebugResume (core : Nat) (s : State) : Out State := .next (s.dbgResume core)
/-- DEBUG_STEP (R393). -/
def execDebugStep (core : Nat) (ctx : BitVec 4) (s : State) : Out State := .next (s.dbgStep core ctx.toNat)

/-- The item that DBGREG selects, as DBGDATA reads it of a core (R392, R400). -/
def State.dbgReadAt (s : State) (fn core : Nat) : Word :=
  let f := s.func fn
  let c := s.core core
  let num := f.dbgreg.toNat % 4096
  let cid := core * 16 + f.dbgreg.toNat / 4096 % 16
  let space := f.dbgreg.toNat / 65536
  if space = 2 then
    if num = 0 then (c.dbg.record[0]?).getD 0
    else if 16 ≤ num && num < 48 && num % 4 < 3 then (c.dbg.record[1 + (num - 16) / 4 * 3 + num % 4]?).getD 0
    else Config.freeDebug num
  else if !c.dbg.stopped then BitVec.allOnes 64
  else if space = 1 then s.sysRead cid num
  else if space = 0 && num < 32 then
    let r := Reg.ofNum num
    if r.isLaneOrPort then Config.freeDebug num else { s with cur := cid }.plain r
  else Config.freeDebug num

/-- DBGDATA as a function reads it; all ones where DBGSEL names no core of its (R392; log 86). -/
def State.dbgRead (s : State) (fn : Nat) : Word := ((s.dbgCore fn).map (s.dbgReadAt fn)).getD (BitVec.allOnes 64)

/-- A write of DBGDATA while the core is in a debug stop (R392). -/
def State.dbgWriteAt (s : State) (fn core : Nat) (v : Word) : State :=
  let f := s.func fn
  let num := f.dbgreg.toNat % 4096
  let cid := core * 16 + f.dbgreg.toNat / 4096 % 16
  let space := f.dbgreg.toNat / 65536
  if !(s.core core).dbg.stopped then s
  else if space = 1 then s.sysWrite cid num v
  else if space = 0 && num < 32 then
    match Reg.ofNum num with
    | .g n => s.onCtx cid (fun c =>
        let c := c.drainAll
        { c with th := { c.th with gpr := c.th.gpr.set n.val v }, awaited := c.awaited.del n.val })
    | .pc => (s.leaveOrders cid).onCtx cid (fun c => { c with fetchPc := toAddr v, th := { c.th with pc := toAddr v } })
    | _ => s
  else s

/-- A write of DBGDATA of a function. -/
def State.dbgWrite (s : State) (fn : Nat) (v : Word) : State :=
  match s.dbgCore fn with
  | some core => s.dbgWriteAt fn core v
  | none => s

/-- DBGDATA_ACCESS (R392). -/
def execDbgdataAccess (fn : Nat) (w : Option (BitVec 64)) (s : State) : Out State :=
  if !s.isFn fn then .next s
  else
    match w with
    | none => .next (s.answerHost fn (s.dbgRead fn) false)
    | some v => .next (s.dbgWrite fn v)

/-! ### BAR 0 registers without behaviour of their own (R378, R381, R392, R395) -/

/-- The fields of BKPTn that a write sets (R395): reserved bits are zero. -/
def bkptMask : Word := 0xE00FFFFFFFFFFFFC#64

/-- A write of DBGCTL or BKPTn of a core's debug module (R392, R395). -/
def State.dbgCtl (s : State) (off : Nat) (v : Word) (core : Nat) : State :=
  if off = 0x108 then
    let s := s.onCore core (fun c => { c with dbg := { c.dbg with claim := bit v 0, stepCtx := v.extractLsb' 4 4 } })
    match bits v 8 2 with
    | 1 => s.dbgStop core
    | 2 => s.dbgResume core
    | 3 => s.dbgStep core (bits v 4 4)
    | _ => s
  else if 0x118 ≤ off && off ≤ 0x130 && off % 8 = 0 then
    s.onCore core (fun c => { c with dbg := { c.dbg with bkpt := c.dbg.bkpt.set ((off - 0x118) / 8) (v &&& bkptMask) } })
  else s

/-- A host write to a BAR 0 offset. A GANG operation takes effect as its own step (R378), and a PART that is not the function's starts
none (log 88). -/
def State.hostWrite (s : State) (fn off : Nat) (v : Word) : State :=
  if off = 0x18 then
    if bits v 0 8 = s.fnPart fn then
      let s := s.onFunc fn (fun f => { f with gangPart := v.truncate 8 })
      match bits v 8 2 with
      | 1 => { s with agenda := .event (.gangStop (s.fnPart fn)) :: s.agenda }
      | 2 => { s with agenda := .event (.gangRelease (s.fnPart fn)) :: s.agenda }
      | 3 => { s with agenda := .event (.gangCancel (s.fnPart fn)) :: s.agenda }
      | _ => s
    else s
  else if off = 0x30 then s.onFunc fn (fun f => { f with hmdest := v })
  else if off = 0x138 then s.onFunc fn (fun f => { f with dbgreg := v.truncate 18 })
  else ((s.dbgCore fn).map (s.dbgCtl off v)).getD s

/-- A register of a core's debug module as BAR 0 shows it (R392, R395): DBGCTL, DBGSTAT, BKPTn. -/
def Dbg.shown (d : Dbg) (off : Nat) : Word :=
  if off = 0x108 then BitVec.ofNat 64 (d.stepCtx.toNat * 16 + d.claim.toNat)
  else if off = 0x110 then BitVec.ofNat 64 (d.stopped.toNat * 2 ^ 63 + d.why % 16 * 16 + d.ctx % 16)
  else if 0x118 ≤ off && off ≤ 0x130 && off % 8 = 0 then d.bkpt.get ((off - 0x118) / 8) 0
  else Config.freeBar off

/-- A BAR 0 register that a read does not change (R378, R381, R392, R403, R404). -/
def State.shown (s : State) (fn off : Nat) : Word :=
  let f := s.func fn
  match off with
  | 0x00 => f.launchw
  | 0x08 => s.ready.zeroExtend 64
  | 0x10 => BitVec.ofNat 64 (f.bootErr.toNat * 16 + f.bootSt.toNat)
  | 0x18 => f.gangPart.zeroExtend 64
  | 0x28 => BitVec.ofNat 64 ((s.part (s.fnPart fn)).idle / 1000000)
  | 0x30 => f.hmdest
  | 0x38 => f.hmdata
  | 0x50 => f.hbada.zeroExtend 64
  | 0x100 => f.dbgsel.zeroExtend 64
  | 0x138 => f.dbgreg.zeroExtend 64
  | _ => ((s.dbgCore fn).map (fun core => (s.core core).dbg.shown off)).getD (Config.freeBar off)

/-- A host reads a BAR 0 register of its function; four of them have steps of their own, which a read of theirs is. -/
def State.readBar (s : State) (fn off : Nat) : Out State :=
  if !s.isFn fn then .next s
  else if off = 0x20 then execFwfaultRead fn s
  else if off = 0x40 then execHmdropRead fn s
  else if off = 0x48 then execHbadwRead fn s
  else if off = 0x140 then execDbgdataAccess fn none s
  else .next (s.answerHost fn (s.shown fn off) false)

/-- HOST_REGISTER_WRITE (R378). -/
def execHostRegisterWrite (fn off : Nat) (v : BitVec 64) (s : State) : Out State :=
  .next (if s.isFn fn then s.hostWrite fn off v else s)

/-! ### Trace (R396 to R399) -/

/-- WOFF and LOST of TRCLOST. -/
def woff (v : Word) : Nat := bits v 32 32

/-- The 32 bytes of a record (R397). -/
def TraceRec.bytes (r : TraceRec) : List Byte :=
  let hdr := r.kind % 16 * 2 ^ 60 + r.ctx % 16 * 2 ^ 56 + r.seq.toNat * 2 ^ 48 + r.pc.toNat / 4 * 4 + (if r.gap then 2 else 0)
  leBytes 8 hdr ++ leBytes 8 r.cyc ++ leBytes 8 r.a.toNat ++ leBytes 8 r.b.toNat

/-- The virtual key of a core's next record: in an address space of its partition (R398). -/
def State.traceAt (s : State) (core : Nat) : Nat :=
  let c := s.core core
  vkey (spaceOf (s.partOf (dieOf core)) (bits c.trcctl 48 16)) (BitVec.ofNat 64 (bits c.trcctl 16 32 * 65536 + 32 * woff c.trclost))

/-- TRCLOST with another WOFF. -/
def withWoff (v : Word) (n : Nat) : Word := BitVec.ofNat 64 (n * 2 ^ 32 + (lo32 v).toNat)

/-- TRACE_RECORD_WRITE (R398): the oldest queued record is sent on its way to its home, and WOFF moves on, to 0 at the buffer's end. -/
def execTraceRecordWrite (core : Nat) (s : State) : Out State :=
  let c := s.core core
  match c.trace with
  | r :: rest =>
    .next (s.setCore core { c with
      trace := rest
      traceNet := c.traceNet ++ [⟨r, woff c.trclost, s.traceAt core, .sent⟩]
      trclost := withWoff c.trclost ((woff c.trclost + 1) % (2048 * 2 ^ bits c.trcctl 12 4)) })
  | [] => .next s

/-- The oldest record on its way has arrived. -/
def markSent (st : TraceSt) : List TraceSent → List TraceSent
  | [] => []
  | e :: rest => if e.st = .sent then { e with st := st } :: rest else e :: markSent st rest

/-- What a core keeps of a record that has arrived (R399): nothing of one performed before any has failed. Once a failure has been
reported, every record behind it is already counted, and a further failure only lowers WOFF. -/
def Core.arrived (c : Core) (off : Nat) (st : TraceSt) : Core :=
  let l := markSent st c.traceNet
  if bit c.trcctl 9 then
    { c with
      traceNet := l.filter (fun e => e.st == .sent)
      trclost := if st = .failed then withWoff c.trclost (min (woff c.trclost) off) else c.trclost }
  else { c with traceNet := l.dropWhile (fun e => e.st == .performed) }

/-- The oldest record on its way reaches its home: it is performed like any write, or finds no translation (R398, R399). -/
def State.traceStep (s : State) (core : Nat) : State :=
  match (s.core core).traceNet.find? (fun e => e.st == .sent) with
  | none => s
  | some e =>
    match (s.translate e.dest true).toOption.bind (fun k => s.agentStore (traceCid core) e.dest k e.item.bytes) with
    | some t => t.onCore core (fun c => c.arrived e.off .performed)
    | none => s.onCore core (fun c => c.arrived e.off .failed)

/-- TRACE_FAULT (R399): a failure reaches the encoder, which halts: the failed record and every later one are lost, and TRACE_HALTED is
queued. -/
def execTraceFault (core : Nat) (s : State) : Out State :=
  let c := s.core core
  match (c.traceNet.filter (fun e => e.st == .failed)).map (fun e => e.off) with
  | off :: offs =>
    let lost := c.trace.foldl (fun v _ => lostOne v) (c.traceNet.foldl (fun v _ => lostOne v) c.trclost)
    let lost := withWoff lost (offs.foldl min off)
    let ctl := (c.trcctl &&& ~~~0x800#64) ||| 0x200#64
    .next ((s.setCore core { c with
      trace := [], traceNet := c.traceNet.filter (fun e => e.st == .sent), traceGap := true, trclost := lost, trcctl := ctl
      }).supervise core .traceHalted lost)
  | [] => .next s

/-! ### Links (R373, R383 to R385) -/

/-- BOUNDARY_FAILURE (R373). -/
def execBoundaryFailure (b : Nat) (s : State) : Out State :=
  .next (if b < 10 && !s.failed.contains b then { s with failed := s.failed ++ [b] } else s)

/-- A rollover begins: new flits go under the new key, with the epoch bit toggled and a nonce of its own (R383, R384). -/
def PeerPort.startRoll (p : PeerPort) : PeerPort := { p with epoch := !p.epoch, nonce := 0, rolling := true, rollWanted := false }

/-- The marker goes once no old-epoch flit is unacknowledged (R384). -/
def PeerPort.mark (p : PeerPort) : PeerPort :=
  if p.rolling && p.marker.isNone && !p.replay.any (fun f => f.epoch != p.epoch) then { p.sendFlit with marker := some p.txSeq } else p

/-- A rollover ends when its marker has been acknowledged, and one that waited for that begins (R384). -/
def PeerPort.finishRoll (p : PeerPort) : PeerPort :=
  let p := match p.marker with
    | some q =>
      if p.replay.any (fun f => f.seq == q) then p
      else if p.rollWanted then { p with marker := none }.startRoll
      else { p with marker := none, rolling := false }
    | none => p
  p.mark

/-- Flits up to an acknowledged sequence leave the replay buffer. -/
def ackFlits (l : List Flit) (a : BitVec 12) : List Flit :=
  if l.any (fun f => f.seq == a) then (l.dropWhile (fun f => f.seq != a)).tail else l

/-- A port goes down (R385): READY shows it, its flits are drained, and the copies that they carried are to be resent. -/
def State.portDown (s : State) (port : Nat) : State :=
  { s.setPeer port { s.peer port with up := false, replay := [], replayAsked := none } with
    ready := s.ready &&& ~~~(1#50 <<< (24 + port))
    cores := s.cores.mapVal (fun c => { c with copies := c.copies.map (CopyCmd.unsent port) }) }

/-- The port sends what its replay buffer holds again, as it was stored (R383). -/
def PeerPort.resend (p : PeerPort) : PeerPort := { p with replay := p.replay.map (fun f => { f with times := f.times + 1 }) }

/-- FLIT_RECEIVE (R383, R384; log 9): a good flit in sequence is taken; a bad tag or a gap asks for a replay from the first missing
sequence. A peer's request makes the port send again what it has not seen acknowledged, and a flit's sixteenth replay takes the
port down. -/
def execFlitReceive (port : Nat) (hdr : BitVec 32) (tagOk : Bool) (s : State) : Out State :=
  let p := s.peer port
  if !p.up then .next s
  else
    let q : BitVec 12 := hdr.extractLsb' 0 12
    let ep := hdr.getLsbD 12
    if tagOk && q == p.rxSeq then
      let marker := hdr.extractLsb' 13 3 == Config.freeMarker
      let p := { p with
        rxSeq := p.rxSeq + 1
        replayAsked := none
        peerEpoch := ep
        bothKeys := if marker then false else p.bothKeys || ep != p.peerEpoch
        replay := ackFlits p.replay (hdr.extractLsb' 16 12) }
      let p := p.finishRoll
      if hdr.extractLsb' 13 3 == Config.freeAskKind then
        let p := p.resend
        if p.replay.any (fun f => decide (16 ≤ f.times)) then .next ((s.setPeer port p).portDown port) else .next (s.setPeer port p)
      else .next (s.setPeer port p)
    else .next (s.setPeer port { p with replayAsked := some p.rxSeq })

/-- KEY_ROLLOVER (R384). -/
def execKeyRollover (port : Nat) (s : State) : Out State :=
  let p := s.peer port
  if !p.up then .next s
  else if p.rolling then .next (s.setPeer port { p with rollWanted := true })
  else .next (s.setPeer port p.startRoll.mark)

/-- PEER_PORT_DOWN (R385). -/
def execPeerPortDown (port : Nat) (s : State) : Out State := .next (if port < 24 then s.portDown port else s)

/-! ### Clocks (R388, R389) -/

/-- The period of a clock level in ns × 2^−32: 1.75, 1.5, 1.25, 1.0, 0.875 GHz. -/
def levelInc (l : Nat) : Nat :=
  match l with
  | 0 => 2454267026 | 1 => 2863311531 | 2 => 3435973837 | 3 => 4294967296 | _ => 4908534053

/-- A cluster adjusts its increment so that its offset from the beat is gone after 4,096 ns (R388). -/
def Cluster.correct (k : Cluster) (ns : Word) : Cluster :=
  let n : Nat := 4096 * 2 ^ 32 / levelInc k.level
  let off : Int := (ns.toNat : Int) - (k.ns.toNat : Int)
  { k with inc := (((levelInc k.level : Nat) : Int) + off * 4294967296 / (n : Int)).toNat }

/-- CORRECTION_BEAT (R388): the beat that hub W sent at ns reaches the clusters, which allow for the delay of the tree: they correct
their copies to the package's time by now. -/
def execCorrectionBeat (ns : BitVec 64) (s : State) : Out State :=
  if s.beat != some ns then .next s
  else .next ((List.range 384).foldl (fun s n => s.setCluster n ({ s.cluster n with ns := s.copyNs n }.correct s.now)) { s with beat := none })

/-- A cluster's clock stops and changes: what has not been performed is fetched again later (R389). -/
def State.stopClock (s : State) (cluster : Nat) (f : Cluster → Cluster) : State :=
  let s := (coresOfCluster cluster).foldl (fun s c => s.haltCore c) s
  s.setCluster cluster { f (s.cluster cluster) with stopped := true }

/-- A cluster at another clock level. -/
def Cluster.atLevel (l : Nat) (k : Cluster) : Cluster := { k with level := l, inc := levelInc l }

/-- FREQUENCY_CHANGE (R389). -/
def execFrequencyChange (cluster level : Nat) (s : State) : Out State :=
  .next (if 384 ≤ cluster || 4 < level then s else s.stopClock cluster (Cluster.atLevel level))

/-- A gang stop that arrived in a frequency change is taken (R389). -/
def State.gangDueAt (s : State) (core : Nat) : State := if (s.core core).gangDue then s.gangStopCore core else s

/-- FREQUENCY_RESUME (R389): everything resumes, and a gang stop that arrived meanwhile is taken. -/
def execFrequencyResume (cluster : Nat) (s : State) : Out State :=
  .next ((coresOfCluster cluster).foldl State.gangDueAt (s.setCluster cluster { s.cluster cluster with stopped := false }))

/-! ### Energy (R403) -/

/-- The context-cycles of an interval, at least those that launches have occupied (log 85). -/
def Die.ctxCycles (d : Die) : Nat := max d.cycles (List.foldl (fun n e => n + e.2) 0 d.occ)

/-- The energy of a launch that a die's interval may still charge: it runs, or it ended in that interval (R403). -/
def Launch.charged (l : Launch) (part die : Nat) : Bool :=
  l.part == part && (!l.ended || (match l.final with
    | some f => f.dies.contains die
    | none => false))

/-- A launch whose end a die has charged. -/
def Launch.closed (die : Nat) (l : Launch) : Launch := { l with final := l.final.map (fun f => { f with dies := f.dies.erase die }) }

/-- A die closes its interval (R403): the dynamic energy goes to its launches, the idle and leakage energy is shared by occupied
context-cycles, what is left goes to the partition's idle account, and the launches whose end is charged by now get their records. -/
def State.chargeDie (s : State) (die : Nat) : State :=
  let d := s.die die
  let n := d.intervals
  let leak := Config.freeLeak die n
  let share (l : Nat) : Nat := leak * d.occ.get l 0 / d.ctxCycles
  let part := s.partOf die
  let used := ((s.launches.filter (fun l => l.charged part die)).map (fun l => share l.num)).foldl (· + ·) 0
  let p := s.part part
  let s := s.setPart part { p with idle := p.idle + (leak - used) }
  let s := s.setDie die { d with intervals := n + 1, occ := [], cycles := 0 }
  let ls := s.launches.map (fun l =>
    (if l.charged part die then { l with energy := l.energy + Config.freeEnergy die n l.num + share l.num } else l).closed die)
  ls.foldl State.finalCrec { s with launches := ls.map Launch.filed }

/-- ENERGY_INTERVAL (R403): an interval closes once its microsecond of GTIME is over. -/
def execEnergyInterval (die : Nat) (s : State) : Out State :=
  .next (if (s.die die).intervals < s.now.toNat / 1000 then s.chargeDie die else s)

/-! ### Power and heat (R390) -/

/-- A cluster one level down, or back up. -/
def Cluster.down (k : Cluster) : Cluster := if k.level < 4 then k.atLevel (k.level + 1) else k
def Cluster.upLevel (k : Cluster) : Cluster := k.atLevel (k.level - 1)

/-- Changes a cluster; another clock level takes the stop of a frequency change (R389). -/
def State.relevel (s : State) (n : Nat) (f : Cluster → Cluster) : State :=
  if (f (s.cluster n)).level = (s.cluster n).level then s.setCluster n (f (s.cluster n)) else s.stopClock n f

/-- Changes every cluster of a die. -/
def State.onClusters (s : State) (die : Nat) (f : Cluster → Cluster) : State :=
  (clustersOfDie die).foldl (fun s n => s.relevel n f) s

/-- THERMAL_STEP (R390): from 100 °C the die's clusters step down until below 95 °C, then back up. -/
def execThermalStep (die temp : Nat) (s : State) : Out State :=
  .next (s.onClusters (die % 8) (fun k =>
    if 100 ≤ temp || (decide (0 < k.hot) && decide (95 ≤ temp)) then (if k.level < 4 then { k.down with hot := k.hot + 1 } else k)
    else if 0 < k.hot then { k.upLevel with hot := k.hot - 1 }
    else k))

/-- THERMAL_TRIP (R390): every partition is cancelled, the compute dies are powered off, and both hubs report it. The interval of a die
ends with its power. -/
def execThermalTrip (die : Nat) (s : State) : Out State :=
  let s := (s.launches.filter (fun l => !l.ended)).foldl (fun s l => s.cancelLaunch l) s
  let s := (List.range 8).foldl State.chargeDie s
  let s := ((List.range 4).filter s.isFn).foldl (fun s fn =>
    (s.onFunc fn (fun f => { f with fwfault := f.fwfault ++ [(die % 8 * 512, Config.freeTrip)] })).msix fn) s
  .next { s with
    offDies := List.range 8
    ctxs := s.ctxs.filter (fun e => isHub (coreOf e.1))
    cores := []
    ready := s.ready &&& 0x3FFFFFF00FFFF#50 }

/-- A cluster at a 10 ms average (R390; log 44): from above 3.6 kW it steps down at each until one is below 3.4 kW. -/
def Cluster.power (watts : Nat) (k : Cluster) : Cluster :=
  let on := decide (3600 < watts) || (k.overload && decide (3400 ≤ watts))
  if on then { k.down with overload := true } else { k with overload := false }

/-- POWER_STEP_DOWN (R390). -/
def execPowerStepDown (watts : Nat) (s : State) : Out State :=
  .next ((List.range 8).foldl (fun s d => s.onClusters d (Cluster.power watts)) s)

end Sys2Proof.Machine
end

