-- ==== Sys2Proof/Machine/Dispatch.lean ====
section
/-! DEFINITION. What each instruction does: one arm per constructor of Instr, each a direct call of its
meaning. -/

namespace Sys2Proof.Machine

open Sys2Proof

/-- The effect of an instruction word on the running context, or of a step of the device. -/
def exec (i : Instr) (s : State) : Host.Outcome State Fault Refusal :=
  match i with
  | .add d a b => Sys2Proof.Machine.execAdd d a b s
  | .addw d a b => Sys2Proof.Machine.execAddw d a b s
  | .sub d a b => Sys2Proof.Machine.execSub d a b s
  | .subw d a b => Sys2Proof.Machine.execSubw d a b s
  | .andR d a b => Sys2Proof.Machine.execAndR d a b s
  | .orR d a b => Sys2Proof.Machine.execOrR d a b s
  | .xorR d a b => Sys2Proof.Machine.execXorR d a b s
  | .andn d a b => Sys2Proof.Machine.execAndn d a b s
  | .orn d a b => Sys2Proof.Machine.execOrn d a b s
  | .shl d a b => Sys2Proof.Machine.execShl d a b s
  | .shlw d a b => Sys2Proof.Machine.execShlw d a b s
  | .shr d a b => Sys2Proof.Machine.execShr d a b s
  | .shrw d a b => Sys2Proof.Machine.execShrw d a b s
  | .sha d a b => Sys2Proof.Machine.execSha d a b s
  | .shaw d a b => Sys2Proof.Machine.execShaw d a b s
  | .rotl d a b => Sys2Proof.Machine.execRotl d a b s
  | .rotlw d a b => Sys2Proof.Machine.execRotlw d a b s
  | .shli d a n h => Sys2Proof.Machine.execShli d a n h s
  | .shliw d a n => Sys2Proof.Machine.execShliw d a n s
  | .shri d a n h => Sys2Proof.Machine.execShri d a n h s
  | .shriw d a n => Sys2Proof.Machine.execShriw d a n s
  | .shai d a n h => Sys2Proof.Machine.execShai d a n h s
  | .shaiw d a n => Sys2Proof.Machine.execShaiw d a n s
  | .slt d a b => Sys2Proof.Machine.execSlt d a b s
  | .sltn d a b => Sys2Proof.Machine.execSltn d a b s
  | .seq d a b => Sys2Proof.Machine.execSeq d a b s
  | .sne d a b => Sys2Proof.Machine.execSne d a b s
  | .min d a b => Sys2Proof.Machine.execMin d a b s
  | .max d a b => Sys2Proof.Machine.execMax d a b s
  | .minn d a b => Sys2Proof.Machine.execMinn d a b s
  | .maxn d a b => Sys2Proof.Machine.execMaxn d a b s
  | .sel d a b => Sys2Proof.Machine.execSel d a b s
  | .spa d a b => Sys2Proof.Machine.execSpa d a b s
  | .spx d a => Sys2Proof.Machine.execSpx d a s
  | .home d a => Sys2Proof.Machine.execHome d a s
  | .mul d a b => Sys2Proof.Machine.execMul d a b s
  | .mulw d a b => Sys2Proof.Machine.execMulw d a b s
  | .mulh d a b => Sys2Proof.Machine.execMulh d a b s
  | .mulhn d a b => Sys2Proof.Machine.execMulhn d a b s
  | .div d a b => Sys2Proof.Machine.execDiv d a b s
  | .divw d a b => Sys2Proof.Machine.execDivw d a b s
  | .divn d a b => Sys2Proof.Machine.execDivn d a b s
  | .divnw d a b => Sys2Proof.Machine.execDivnw d a b s
  | .rem d a b => Sys2Proof.Machine.execRem d a b s
  | .remw d a b => Sys2Proof.Machine.execRemw d a b s
  | .remn d a b => Sys2Proof.Machine.execRemn d a b s
  | .remnw d a b => Sys2Proof.Machine.execRemnw d a b s
  | .clz d a => Sys2Proof.Machine.execClz d a s
  | .clzw d a => Sys2Proof.Machine.execClzw d a s
  | .ctz d a => Sys2Proof.Machine.execCtz d a s
  | .ctzw d a => Sys2Proof.Machine.execCtzw d a s
  | .pop d a => Sys2Proof.Machine.execPop d a s
  | .popw d a => Sys2Proof.Machine.execPopw d a s
  | .brev d a => Sys2Proof.Machine.execBrev d a s
  | .brevw d a => Sys2Proof.Machine.execBrevw d a s
  | .bswap d a => Sys2Proof.Machine.execBswap d a s
  | .bswapw d a => Sys2Proof.Machine.execBswapw d a s
  | .addi d a imm => Sys2Proof.Machine.execAddi d a imm s
  | .andi d a imm => Sys2Proof.Machine.execAndi d a imm s
  | .ori d a imm => Sys2Proof.Machine.execOri d a imm s
  | .xori d a imm => Sys2Proof.Machine.execXori d a imm s
  | .slti d a imm => Sys2Proof.Machine.execSlti d a imm s
  | .sltni d a imm => Sys2Proof.Machine.execSltni d a imm s
  | .li d imm => Sys2Proof.Machine.execLi d imm s
  | .lih d imm => Sys2Proof.Machine.execLih d imm s
  | .muli d a imm => Sys2Proof.Machine.execMuli d a imm s
  | .addiw d a imm => Sys2Proof.Machine.execAddiw d a imm s
  | .ext d a p l => Sys2Proof.Machine.execExt d a p l s
  | .extx d a p l => Sys2Proof.Machine.execExtx d a p l s
  | .ins d a p l => Sys2Proof.Machine.execIns d a p l s
  | .beq a b imm => Sys2Proof.Machine.execBeq a b imm s
  | .bne a b imm => Sys2Proof.Machine.execBne a b imm s
  | .blt a b imm => Sys2Proof.Machine.execBlt a b imm s
  | .bge a b imm => Sys2Proof.Machine.execBge a b imm s
  | .bltn a b imm => Sys2Proof.Machine.execBltn a b imm s
  | .bgen a b imm => Sys2Proof.Machine.execBgen a b imm s
  | .j imm => Sys2Proof.Machine.execJ imm s
  | .jal imm => Sys2Proof.Machine.execJal imm s
  | .jr a => Sys2Proof.Machine.execJr a s
  | .jalr d a => Sys2Proof.Machine.execJalr d a s
  | .align n => Sys2Proof.Machine.execAlign n s
  | .bsig e => Sys2Proof.Machine.execBsig e s
  | .bsigt e => Sys2Proof.Machine.execBsigt e s
  | .nest a imm => Sys2Proof.Machine.execNest a imm s
  | .next imm => Sys2Proof.Machine.execNext imm s
  | .ld t a s_ o c imm => Sys2Proof.Machine.execLd t a s_ o c imm s
  | .ldx t a s_ o c imm => Sys2Proof.Machine.execLdx t a s_ o c imm s
  | .st t a s_ o c imm => Sys2Proof.Machine.execSt t a s_ o c imm s
  | .ldf t a o c imm => Sys2Proof.Machine.execLdf t a o c imm s
  | .stf t a o c imm => Sys2Proof.Machine.execStf t a o c imm s
  | .ldff t a o c imm => Sys2Proof.Machine.execLdff t a o c imm s
  | .faa t a s_ o c => Sys2Proof.Machine.execFaa t a s_ o c s
  | .fxch t a s_ o c => Sys2Proof.Machine.execFxch t a s_ o c s
  | .fcas t a s_ o c => Sys2Proof.Machine.execFcas t a s_ o c s
  | .fmin t a s_ o c => Sys2Proof.Machine.execFmin t a s_ o c s
  | .fmax t a s_ o c => Sys2Proof.Machine.execFmax t a s_ o c s
  | .fand t a s_ o c => Sys2Proof.Machine.execFand t a s_ o c s
  | .forA t a s_ o c => Sys2Proof.Machine.execForA t a s_ o c s
  | .fxor t a s_ o c => Sys2Proof.Machine.execFxor t a s_ o c s
  | .watch a => Sys2Proof.Machine.execWatch a s
  | .unwatch a => Sys2Proof.Machine.execUnwatch a s
  | .waita d a => Sys2Proof.Machine.execWaita d a s
  | .pref a => Sys2Proof.Machine.execPref a s
  | .fence s_ => Sys2Proof.Machine.execFence s_ s
  | .migr d a => Sys2Proof.Machine.execMigr d a s
  | .sete a => Sys2Proof.Machine.execSete a s
  | .setf a => Sys2Proof.Machine.execSetf a s
  | .flush a => Sys2Proof.Machine.execFlush a s
  | .send a b => Sys2Proof.Machine.execSend a b s
  | .tsend a b => Sys2Proof.Machine.execTsend a b s
  | .tdeq d => Sys2Proof.Machine.execTdeq d s
  | .tnull => Sys2Proof.Machine.execTnull s
  | .advt a => Sys2Proof.Machine.execAdvt a s
  | .binit a b => Sys2Proof.Machine.execBinit a b s
  | .arv d a o s_ n => Sys2Proof.Machine.execArv d a o s_ n s
  | .arvp a o s_ n => Sys2Proof.Machine.execArvp a o s_ n s
  | .bwt a b o s_ => Sys2Proof.Machine.execBwt a b o s_ s
  | .wait l s_ c m => Sys2Proof.Machine.execWait l s_ c m s
  | .spawn a b f => Sys2Proof.Machine.execSpawn a b f s
  | .wfw => Sys2Proof.Machine.execWfw s
  | .halt => Sys2Proof.Machine.execHalt s
  | .yield => Sys2Proof.Machine.execYield s
  | .ctxs a b => Sys2Proof.Machine.execCtxs a b s
  | .ctxr a => Sys2Proof.Machine.execCtxr a s
  | .prmt a => Sys2Proof.Machine.execPrmt a s
  | .lnch a => Sys2Proof.Machine.execLnch a s
  | .actb d a => Sys2Proof.Machine.execActb d a s
  | .actj a => Sys2Proof.Machine.execActj a s
  | .actd => Sys2Proof.Machine.execActd s
  | .acte a => Sys2Proof.Machine.execActe a s
  | .acta a => Sys2Proof.Machine.execActa a s
  | .actst d a => Sys2Proof.Machine.execActst d a s
  | .cpush a b => Sys2Proof.Machine.execCpush a b s
  | .cret a => Sys2Proof.Machine.execCret a s
  | .mfs d r => Sys2Proof.Machine.execMfs d r s
  | .mts a r => Sys2Proof.Machine.execMts a r s
  | .trap imm => Sys2Proof.Machine.execTrap imm s
  | .tret => Sys2Proof.Machine.execTret s
  | .settle a e c => Sys2Proof.Machine.execSettle a e c s
  | .brk imm => Sys2Proof.Machine.execBrk imm s
  | .scrub a n => Sys2Proof.Machine.execScrub a n s
  | .vaddFp d a b m t e => Sys2Proof.Machine.execVaddFp d a b m t e s
  | .vsubFp d a b m t e => Sys2Proof.Machine.execVsubFp d a b m t e s
  | .vmulFp d a b m t e => Sys2Proof.Machine.execVmulFp d a b m t e s
  | .vfma d a b c m t e => Sys2Proof.Machine.execVfma d a b c m t e s
  | .vfms d a b c m t e => Sys2Proof.Machine.execVfms d a b c m t e s
  | .vminFp d a b m t e => Sys2Proof.Machine.execVminFp d a b m t e s
  | .vmaxFp d a b m t e => Sys2Proof.Machine.execVmaxFp d a b m t e s
  | .vabsFp d a m t e => Sys2Proof.Machine.execVabsFp d a m t e s
  | .vnegFp d a m t e => Sys2Proof.Machine.execVnegFp d a m t e s
  | .vdiv d a b m t e => Sys2Proof.Machine.execVdiv d a b m t e s
  | .vsqrt d a m t e => Sys2Proof.Machine.execVsqrt d a m t e s
  | .vrcp d a m t e => Sys2Proof.Machine.execVrcp d a m t e s
  | .vrsq d a m t e => Sys2Proof.Machine.execVrsq d a m t e s
  | .vexp2 d a m t e => Sys2Proof.Machine.execVexp2 d a m t e s
  | .vlog2 d a m t e => Sys2Proof.Machine.execVlog2 d a m t e s
  | .vcvt d a s_ m t e => Sys2Proof.Machine.execVcvt d a s_ m t e s
  | .vcmpFp k a b m r t e => Sys2Proof.Machine.execVcmpFp k a b m r t e s
  | .vredFp d a m o t e => Sys2Proof.Machine.execVredFp d a m o t e s
  | .vaddInt d a b m t e => Sys2Proof.Machine.execVaddInt d a b m t e s
  | .vsubInt d a b m t e => Sys2Proof.Machine.execVsubInt d a b m t e s
  | .vmulInt d a b m t e => Sys2Proof.Machine.execVmulInt d a b m t e s
  | .vminInt d a b m t e => Sys2Proof.Machine.execVminInt d a b m t e s
  | .vmaxInt d a b m t e => Sys2Proof.Machine.execVmaxInt d a b m t e s
  | .vabsInt d a m t e => Sys2Proof.Machine.execVabsInt d a m t e s
  | .vnegInt d a m t e => Sys2Proof.Machine.execVnegInt d a m t e s
  | .vand d a b m t e => Sys2Proof.Machine.execVand d a b m t e s
  | .vor d a b m t e => Sys2Proof.Machine.execVor d a b m t e s
  | .vxor d a b m t e => Sys2Proof.Machine.execVxor d a b m t e s
  | .vandn d a b m t e => Sys2Proof.Machine.execVandn d a b m t e s
  | .vshl d a b m t e => Sys2Proof.Machine.execVshl d a b m t e s
  | .vshr d a b m t e => Sys2Proof.Machine.execVshr d a b m t e s
  | .vsha d a b m t e => Sys2Proof.Machine.execVsha d a b m t e s
  | .vcmpInt k a b m r t e => Sys2Proof.Machine.execVcmpInt k a b m r t e s
  | .vredInt d a m o t e => Sys2Proof.Machine.execVredInt d a m o t e s
  | .vsel d a b m t e => Sys2Proof.Machine.execVsel d a b m t e s
  | .vperm d a b m t e => Sys2Proof.Machine.execVperm d a b m t e s
  | .vslup d a b m t e => Sys2Proof.Machine.execVslup d a b m t e s
  | .vsldn d a b m t e => Sys2Proof.Machine.execVsldn d a b m t e s
  | .viota d m t e => Sys2Proof.Machine.execViota d m t e s
  | .vpopk d m t e => Sys2Proof.Machine.execVpopk d m t e s
  | .vld d g m t e => Sys2Proof.Machine.execVld d g m t e s
  | .vst d g m t e => Sys2Proof.Machine.execVst d g m t e s
  | .vlds d g s_ m t e => Sys2Proof.Machine.execVlds d g s_ m t e s
  | .vsts d g s_ m t e => Sys2Proof.Machine.execVsts d g s_ m t e s
  | .vgath d g imm m t e => Sys2Proof.Machine.execVgath d g imm m t e s
  | .vscat d g imm m t e => Sys2Proof.Machine.execVscat d g imm m t e s
  | .vldk k g e => Sys2Proof.Machine.execVldk k g e s
  | .vstk k g e => Sys2Proof.Machine.execVstk k g e s
  | .vbcst d g m t e => Sys2Proof.Machine.execVbcst d g m t e s
  | .vins d g b t e => Sys2Proof.Machine.execVins d g b t e s
  | .vext d b t e => Sys2Proof.Machine.execVext d b t e s
  | .vsetk k g e => Sys2Proof.Machine.execVsetk k g e s
  | .vmovk k s_ e => Sys2Proof.Machine.execVmovk k s_ e s
  | .mcfg a e => Sys2Proof.Machine.execMcfg a e s
  | .mwl a b e => Sys2Proof.Machine.execMwl a b e s
  | .mma a b e => Sys2Proof.Machine.execMma a b e s
  | .macp a b e => Sys2Proof.Machine.execMacp a b e s
  | .mclr a e => Sys2Proof.Machine.execMclr a e s
  | .mstage a b e => Sys2Proof.Machine.execMstage a b e s
  | .mpri e p => Sys2Proof.Machine.execMpri e p s
  | .mcan a e => Sys2Proof.Machine.execMcan a e s
  | .csetb a b e n f => Sys2Proof.Machine.execCsetb a b e n f s
  | .csetd a b e n k => Sys2Proof.Machine.execCsetd a b e n k s
  | .csetsScale a b e n => Sys2Proof.Machine.execCsetsScale a b e n s
  | .csetsMcast a b e n => Sys2Proof.Machine.execCsetsMcast a b e n s
  | .cgo a b e s_ t o => Sys2Proof.Machine.execCgo a b e s_ t o s
  | .cgoc a b e s_ t o => Sys2Proof.Machine.execCgoc a b e s_ t o s
  | .ccan e => Sys2Proof.Machine.execCcan e s
  | .issueTurn core => Sys2Proof.Machine.execIssueTurn core s
  | .multiplyDone core => Sys2Proof.Machine.execMultiplyDone core s
  | .divideDone core => Sys2Proof.Machine.execDivideDone core s
  | .leaveLate cid => Sys2Proof.Machine.execLeaveLate cid s
  | .lateValueReturn n delay => Sys2Proof.Machine.execLateValueReturn n delay s
  | .lateValueLand core => Sys2Proof.Machine.execLateValueLand core s
  | .retire cid => Sys2Proof.Machine.execRetire cid s
  | .landingDrain core => Sys2Proof.Machine.execLandingDrain core s
  | .withdraw cid => Sys2Proof.Machine.execWithdraw cid s
  | .contextWake cid => Sys2Proof.Machine.execContextWake cid s
  | .killWaveFoot cid => Sys2Proof.Machine.execKillWaveFoot cid s
  | .fetchServe cluster => Sys2Proof.Machine.execFetchServe cluster s
  | .fetchFill cluster => Sys2Proof.Machine.execFetchFill cluster s
  | .alignRelease cid => Sys2Proof.Machine.execAlignRelease cid s
  | .boundary cid => Sys2Proof.Machine.execBoundary cid s
  | .delegationPresent core => Sys2Proof.Machine.execDelegationPresent core s
  | .lateFaultReport n => Sys2Proof.Machine.execLateFaultReport n s
  | .preemptSuspend cid => Sys2Proof.Machine.execPreemptSuspend cid s
  | .containmentKill cid what => Sys2Proof.Machine.execContainmentKill cid what s
  | .gangStopArrive core => Sys2Proof.Machine.execGangStopArrive core s
  | .gangStop part => Sys2Proof.Machine.execGangStop part s
  | .gangRelease part => Sys2Proof.Machine.execGangRelease part s
  | .gangCancel part => Sys2Proof.Machine.execGangCancel part s
  | .launchAccept part => Sys2Proof.Machine.execLaunchAccept part s
  | .taskGenerate launch => Sys2Proof.Machine.execTaskGenerate launch s
  | .taskAge die k => Sys2Proof.Machine.execTaskAge die k s
  | .taskBind cluster => Sys2Proof.Machine.execTaskBind cluster s
  | .bankPowerUpDone core => Sys2Proof.Machine.execBankPowerUpDone core s
  | .bankPowerDown core => Sys2Proof.Machine.execBankPowerDown core s
  | .stealRequest die => Sys2Proof.Machine.execStealRequest die s
  | .stealAnswer n => Sys2Proof.Machine.execStealAnswer n s
  | .stealBackoff die => Sys2Proof.Machine.execStealBackoff die s
  | .spawnerRescue die => Sys2Proof.Machine.execSpawnerRescue die s
  | .threadDepart cid => Sys2Proof.Machine.execThreadDepart cid s
  | .migrationArrival n => Sys2Proof.Machine.execMigrationArrival n s
  | .migrationResend core => Sys2Proof.Machine.execMigrationResend core s
  | .arrivalMove core => Sys2Proof.Machine.execArrivalMove core s
  | .launchSweep part => Sys2Proof.Machine.execLaunchSweep part s
  | .homeLoad n => Sys2Proof.Machine.execHomeLoad n s
  | .homeWriteBack n => Sys2Proof.Machine.execHomeWriteBack n s
  | .homeLdf n => Sys2Proof.Machine.execHomeLdf n s
  | .homeLdff n => Sys2Proof.Machine.execHomeLdff n s
  | .homeStf n => Sys2Proof.Machine.execHomeStf n s
  | .homeSete n => Sys2Proof.Machine.execHomeSete n s
  | .homeSetf n => Sys2Proof.Machine.execHomeSetf n s
  | .homeAtomReserve n => Sys2Proof.Machine.execHomeAtomReserve n s
  | .homeAtomRelease n => Sys2Proof.Machine.execHomeAtomRelease n s
  | .homeWatch n => Sys2Proof.Machine.execHomeWatch n s
  | .homeUnwatch n => Sys2Proof.Machine.execHomeUnwatch n s
  | .homeWaitaRead n => Sys2Proof.Machine.execHomeWaitaRead n s
  | .homeFlush n => Sys2Proof.Machine.execHomeFlush n s
  | .homeBinit n => Sys2Proof.Machine.execHomeBinit n s
  | .homeArv n => Sys2Proof.Machine.execHomeArv n s
  | .homeBwt n => Sys2Proof.Machine.execHomeBwt n s
  | .orphanMessage n => Sys2Proof.Machine.execOrphanMessage n s
  | .requestRefused n => Sys2Proof.Machine.execRequestRefused n s
  | .requestResend core => Sys2Proof.Machine.execRequestResend core s
  | .wcbSend core => Sys2Proof.Machine.execWcbSend core s
  | .watchWake n => Sys2Proof.Machine.execWatchWake n s
  | .polledWatch core => Sys2Proof.Machine.execPolledWatch core s
  | .invalidation n => Sys2Proof.Machine.execInvalidation n s
  | .replicaDrop die line => Sys2Proof.Machine.execReplicaDrop die line s
  | .dropNotice n => Sys2Proof.Machine.execDropNotice n s
  | .parityUpdate core g => Sys2Proof.Machine.execParityUpdate core g s
  | .scrubPass core => Sys2Proof.Machine.execScrubPass core s
  | .scrubRequestBlock core => Sys2Proof.Machine.execScrubRequestBlock core s
  | .messageAccept n => Sys2Proof.Machine.execMessageAccept n s
  | .messageResend core => Sys2Proof.Machine.execMessageResend core s
  | .inboxRefill core => Sys2Proof.Machine.execInboxRefill core s
  | .portWordArrive n => Sys2Proof.Machine.execPortWordArrive n s
  | .timedMessageArrive n => Sys2Proof.Machine.execTimedMessageArrive n s
  | .announcement core dest => Sys2Proof.Machine.execAnnouncement core dest s
  | .announcementReceive n => Sys2Proof.Machine.execAnnouncementReceive n s
  | .zeroLookaheadRound core => Sys2Proof.Machine.execZeroLookaheadRound core s
  | .endOfTime core => Sys2Proof.Machine.execEndOfTime core s
  | .energyRefill core => Sys2Proof.Machine.execEnergyRefill core s
  | .energyInterval die => Sys2Proof.Machine.execEnergyInterval die s
  | .vectorComplete core k => Sys2Proof.Machine.execVectorComplete core k s
  | .vectorFault core k => Sys2Proof.Machine.execVectorFault core k s
  | .copyPieceDone core k piece => Sys2Proof.Machine.execCopyPieceDone core k piece s
  | .copyComplete core k => Sys2Proof.Machine.execCopyComplete core k s
  | .copyFault core k => Sys2Proof.Machine.execCopyFault core k s
  | .stagedEnter core => Sys2Proof.Machine.execStagedEnter core s
  | .matrixStart core => Sys2Proof.Machine.execMatrixStart core s
  | .planeLoadDone core => Sys2Proof.Machine.execPlaneLoadDone core s
  | .kstepDone core => Sys2Proof.Machine.execKstepDone core s
  | .matrixComplete core => Sys2Proof.Machine.execMatrixComplete core s
  | .matrixFault core => Sys2Proof.Machine.execMatrixFault core s
  | .currentLimiterSample die amps => Sys2Proof.Machine.execCurrentLimiterSample die amps s
  | .stampDraw cid => Sys2Proof.Machine.execStampDraw cid s
  | .cpushDurable cid => Sys2Proof.Machine.execCpushDurable cid s
  | .unwindChoose domain => Sys2Proof.Machine.execUnwindChoose domain s
  | .routineBind cluster => Sys2Proof.Machine.execRoutineBind cluster s
  | .sepiactlRetry core v => Sys2Proof.Machine.execSepiactlRetry core v s
  | .sepiactlSkip core v => Sys2Proof.Machine.execSepiactlSkip core v s
  | .sepiactlFail core v => Sys2Proof.Machine.execSepiactlFail core v s
  | .slateRetireBank core bank => Sys2Proof.Machine.execSlateRetireBank core bank s
  | .slateFailParity core bank => Sys2Proof.Machine.execSlateFailParity core bank s
  | .slateClearCounts core => Sys2Proof.Machine.execSlateClearCounts core s
  | .slatestWrite core v => Sys2Proof.Machine.execSlatestWrite core v s
  | .inboxRingSet core size v => Sys2Proof.Machine.execInboxRingSet core size v s
  | .fpmodeWrite cid v => Sys2Proof.Machine.execFpmodeWrite cid v s
  | .fpflagsAccess cid w => Sys2Proof.Machine.execFpflagsAccess cid w s
  | .mxCounterClear cid which => Sys2Proof.Machine.execMxCounterClear cid which s
  | .profClear core k => Sys2Proof.Machine.execProfClear core k s
  | .trcctlWrite core v => Sys2Proof.Machine.execTrcctlWrite core v s
  | .windowInvalidate core code line => Sys2Proof.Machine.execWindowInvalidate core code line s
  | .windowOverflowPop core => Sys2Proof.Machine.execWindowOverflowPop core s
  | .windowOverflowRelease core line => Sys2Proof.Machine.execWindowOverflowRelease core line s
  | .launchwWrite fn v => Sys2Proof.Machine.execLaunchwWrite fn v s
  | .bootImageStaged fn => Sys2Proof.Machine.execBootImageStaged fn s
  | .unitReady k => Sys2Proof.Machine.execUnitReady k s
  | .fwfaultRead fn => Sys2Proof.Machine.execFwfaultRead fn s
  | .hmdataWrite fn v => Sys2Proof.Machine.execHmdataWrite fn v s
  | .hostMessageSend fn => Sys2Proof.Machine.execHostMessageSend fn s
  | .hmdropRead fn => Sys2Proof.Machine.execHmdropRead fn s
  | .hbadwRead fn => Sys2Proof.Machine.execHbadwRead fn s
  | .hostPostedWrite fn off size data => Sys2Proof.Machine.execHostPostedWrite fn off size data s
  | .cxlMemWrite fn off size data => Sys2Proof.Machine.execCxlMemWrite fn off size data s
  | .hostRead fn off size => Sys2Proof.Machine.execHostRead fn off size s
  | .hostRegisterWrite fn off v => Sys2Proof.Machine.execHostRegisterWrite fn off v s
  | .dbgselWrite fn v => Sys2Proof.Machine.execDbgselWrite fn v s
  | .debugStop core => Sys2Proof.Machine.execDebugStop core s
  | .debugResume core => Sys2Proof.Machine.execDebugResume core s
  | .debugStep core ctx => Sys2Proof.Machine.execDebugStep core ctx s
  | .dbgdataAccess fn w => Sys2Proof.Machine.execDbgdataAccess fn w s
  | .firmwareFault core => Sys2Proof.Machine.execFirmwareFault core s
  | .traceRecordWrite core => Sys2Proof.Machine.execTraceRecordWrite core s
  | .traceFault core => Sys2Proof.Machine.execTraceFault core s
  | .boundaryFailure b => Sys2Proof.Machine.execBoundaryFailure b s
  | .flitReceive port hdr tagOk => Sys2Proof.Machine.execFlitReceive port hdr tagOk s
  | .keyRollover port => Sys2Proof.Machine.execKeyRollover port s
  | .peerPortDown port => Sys2Proof.Machine.execPeerPortDown port s
  | .correctionBeat ns => Sys2Proof.Machine.execCorrectionBeat ns s
  | .frequencyChange cluster level => Sys2Proof.Machine.execFrequencyChange cluster level s
  | .frequencyResume cluster => Sys2Proof.Machine.execFrequencyResume cluster s
  | .thermalStep die temp => Sys2Proof.Machine.execThermalStep die temp s
  | .thermalTrip die => Sys2Proof.Machine.execThermalTrip die s
  | .powerStepDown watts => Sys2Proof.Machine.execPowerStepDown watts s
  | .powerUp => Sys2Proof.Machine.execPowerUp s
  | .acknowledgementArrival n delay => Sys2Proof.Machine.execAcknowledgementArrival n delay s
  | .backInvalidationAck n => Sys2Proof.Machine.execBackInvalidationAck n s
  | .spawnPushArrival n => Sys2Proof.Machine.execSpawnPushArrival n s
  | .stolenTasksArrival n => Sys2Proof.Machine.execStolenTasksArrival n s
  | .instructionCacheFill cluster block => Sys2Proof.Machine.execInstructionCacheFill cluster block s
  | .retentionRelease core => Sys2Proof.Machine.execRetentionRelease core s
  | .firmwareStagingWrite fn off data => Sys2Proof.Machine.execFirmwareStagingWrite fn off data s
  | .attestationRequest fn req => Sys2Proof.Machine.execAttestationRequest fn req s
  | .peerCopyPieceArrival port va bytes => Sys2Proof.Machine.execPeerCopyPieceArrival port va bytes s

end Sys2Proof.Machine
end

