-- ==== Sys2Proof/Machine/Run.lean ====
section
/-! DEFINITION. How the machine goes on by itself: what a context does in its turn (R62, R83, R91, R215, R394), and the
schedule that picks the next step of the device when the agenda is empty (log 1). -/

namespace Sys2Proof.Machine

open Sys2Proof

/-! ### One packet (R83, R91, R215, R394, R395) -/

/-- The word that the running context performs next: that of its oldest injected packet, or the one at its pc; none where no
executable page gave one. -/
def State.fetched (s : State) : Option Word32 :=
  match s.me.injected with
  | p :: _ => if p.cause == some .pageFault then none else some p.op
  | [] => s.fetchWord s.cur s.th.pc

/-- The instruction that the running context performs next. -/
def State.decoded (s : State) : Option Instr := s.fetched.bind (fun w => (decode w).toOption)

/-- Instructions of the engine extensions (majors 0x30 and 0x38 to 0x3D), which find a thread's engine state reloaded (R54). -/
def usesEngines (i : Instr) : Bool := majorOf i == 0x30 || (0x38 ≤ majorOf i && majorOf i ≤ 0x3D)

/-- What the packet does by itself: the cause that it carries from stage 6, else its instruction, ILLEGAL for a word that decodes
to none, PAGE_FAULT for an address that no executable page maps. -/
def State.own (s : State) : Out State :=
  match s.me.carried with
  | some (c, x) => s.raise c x
  | none =>
    match s.fetched with
    | none => s.raise .pageFault (ofAddr s.th.pc)
    | some w =>
      match decode w with
      | .error _ => s.raise .illegal (w.zeroExtend 64)
      | .ok i => exec i (if usesEngines i then s.reloadEngine else s)

/-- The precise cause code that the packet raised between two states, if it raised one. -/
def State.causeOf (s t : State) : Option Nat :=
  let n := (t.ctx s.cur).traps
  if n == s.me.traps then none else some (n % 64)

/-- The packet stands before its performance, with nothing sent. -/
def Ctx.stands (c : Ctx) : Bool :=
  match c.run with
  | .waiting w => !w.fixed && c.bay.isNone
  | _ => false

/-- The packet is to be compared with the comparators (R394, R395): it passes stage 10, or what it performs stands once it has
begun, so that a match must come before. One that only reads, watches or waits at stage 6 is compared when it leaves that. -/
def Ctx.compared (c : Ctx) : Bool :=
  match c.run with
  | .waiting .reply => c.performing
  | .waiting (.depart ..) | .waiting .sleep | .waiting .durable | .waiting .divided => true
  | .waiting _ => false
  | _ => true

/-- The stage at which the running context's instruction is dealt with: an X instruction that migrates its thread at stage 10
(R55, R66). -/
def State.stageNow (s : State) (i : Instr) : Nat :=
  let x := majorOf i == 0x3C || (match i with | .cgoc .. => true | _ => false)
  if x && !hasX s.here && (s.xTarget s.here).isSome then 10 else stageOf i

/-- Loads and the others that stage 6 performs without waiting for older packets (R83). -/
def looseAt6 : Instr → Bool
  | .ld .. | .ldx .. | .ldff .. | .pref _ | .bwt .. => true
  | _ => false

/-- The packet performs only after every older packet has certified (R83): at stage 8, at stage 6 but for the loads, and at either
where it ends a checked block. -/
def State.gated (s : State) (i : Instr) : Bool :=
  let n := s.stageNow i
  n == 8 || (n == 6 && (!looseAt6 i || s.endb i))

/-- The running context's packet is gated. -/
def State.gatedNow (s : State) : Bool := (s.decoded.map s.gated).getD false

/-- NEST and NEXT, whose direction, and so whose comparison, comes from their claim (R83). -/
def byClaim : Instr → Bool
  | .nest .. | .next .. => true
  | _ => false

/-- SIGNATURE of the packet that stands before its performance (R83, R88, R89). -/
def State.sigNow (s : State) : Option Word :=
  match s.decoded with
  | some i => if s.gated i && !byClaim i && s.sigFails i false then some (s.sigDetail i false) else none
  | none => none

/-- The packet performs at stage 10 or before stage 6, so that a pre-emption is taken in its place (R215). -/
def State.early (s : State) : Bool :=
  match s.decoded with
  | some i => s.stageNow i != 6 && s.stageNow i != 8
  | none => true

/-- What stays of a packet that a boundary does not let complete: a multiply or divide that the siding has accepted at stage 4
(R137, R139). -/
def State.keeping (s t : State) : State :=
  if (s.decoded.map s.stageNow) == some 4 then
    (s.onCore s.here (fun c => { c with mul := (t.core s.here).mul, divq := (t.core s.here).divq })).onCtx s.cur
      (fun c => { c with lates := (t.ctx s.cur).lates })
  else s

/-- What the packet's boundary makes of its own outcome t (R215 items 3 to 6, R394): a pending event before what a gated packet
would raise only in performing; the precise cause of highest priority; a pending event; a pre-emption, unless the packet has
performed; else the packet is done. A pending item takes the packet to stage 10, where a comparator may match it; the checker
compares a gated packet as soon as its older packets have certified, whatever it still waits for (R83). -/
def State.settleOwn (s t : State) : State :=
  let c := s.causeOf t
  let code := c.getD 64
  let x := t.ctx s.cur
  let u := s.keeping t
  let async := s.me.asyncDue s.cur && (c.isNone || (s.gatedNow && decide (10 ≤ code)))
  let pre := c.isNone && s.preemptDue s.cur && (s.early || x.stands)
  match (if (x.compared || async || pre) && decide (7 ≤ code) then s.bkptNow else none) with
  | some n => u.bkptTaken n
  | none =>
    match (if 9 ≤ code then s.sigNow else none) with
    | some d => s.trap .signature d
    | none =>
      if async then (u.takeAsync s.cur).getD t
      else if pre then (u.takePreempt s.cur).getD t
      else t

/-- Context 0 has a delegation to be presented with. -/
def State.presentNow (s : State) : Bool := ctxOf s.cur == 0 && s.presentable s.here

/-- The packet stops at its boundary whatever its instruction does: an item is pending, the foot or a comparator has marked it,
or it is gated (R83, R91). -/
def State.standing (s : State) : Bool :=
  s.pendingAt s.cur || s.presentNow || s.me.parkDue.isSome || s.me.carried.isSome || s.bkptNow.isSome || s.gatedNow
    || (match s.me.injected with
      | p :: _ => p.cause.isSome
      | [] => false)

/-- A park that a refused request asks for at the boundary: the packet is withdrawn (R186), and waits for nothing of its own. -/
def State.takePark (s : State) (w : Wait) : State :=
  ((s.wave s.cur (s.seqNow - 1) s.th.pc).leaveOrders s.cur).withMe (fun c => { c with run := .parked w, parkDue := none })

/-- The outcome of a packet that does more than pass stage 10: it has raised a cause, or its thread is to leave the context (R91). -/
def State.stops (s t : State) : Bool :=
  (s.causeOf t).isSome
    || (match (t.ctx s.cur).run with
      | .waiting (.depart ..) => true
      | r => r == .vacant)

/-- The running context's packet at its boundary (R91, R215; log 41 for the place of a delegation, R220); one that has something to
raise or do there waits for every older packet to certify. -/
def State.perform (s : State) : Out State :=
  let older := !s.me.retiring.isEmpty
  if older && s.standing then s.waitFor .older
  else
    match s.takeFirst s.cur with
    | some t => .next t
    | none =>
      if s.presentNow then .next (s.present s.here)
      else
        match s.me.parkDue with
        | some w => .next (s.takePark w)
        | none =>
          match s.own with
          | .next t => if older && s.stops t then s.waitFor .older else .next (s.settleOwn t)
          | o => o

/-- A context whose oldest packet may perform. -/
def State.mayPerform (s : State) (cid : Nat) : Bool :=
  let c := s.ctx cid
  s.mayTurn (coreOf cid) (ctxOf cid) && c.run == .runnable && c.bay.isNone && !c.injected.isEmpty

/-- A context's oldest packet performs, if it may. -/
def State.performOf (s : State) (cid : Nat) : Out State :=
  if s.mayPerform cid then { s with cur := cid }.perform else .next s

/-! ### A core's turn (R62) -/

/-- A wave with nothing above it reaches the foot. -/
def Ctx.footed (c : Ctx) : Bool := c.injected.isEmpty && !c.waves.isEmpty

/-- Contexts whose condition holds become runnable, waves reach the foot, a packet retires, and the block of the next word is
asked for (R77, R79, R81, R85). -/
def State.wakeCtx (s : State) (cid : Nat) : State :=
  if (s.ctx cid).run == .vacant then s
  else
    let s := if s.canGo cid then s.goOn cid else s
    let s := if (s.ctx cid).footed then s.onCtx cid Ctx.applyWaves else s
    (s.retireStep cid).want cid

/-- Every context of a core. -/
def State.wakeCore (s : State) (core : Nat) : State := (List.range 16).foldl (fun s k => s.wakeCtx (core * 16 + k)) s

/-- The context of a core whose oldest packet performs next. -/
def State.choose (s : State) (core : Nat) : Option Nat :=
  (nextReady (fun k => s.mayPerform (core * 16 + k)) ((s.core core).cyc % 16)).map (fun k => core * 16 + k)

/-- One outcome after another. -/
def andThen (o : Out State) (f : State → Out State) : Out State :=
  match o with
  | .next t => f t
  | o => o

/-- What a core does at fixed numbers of its cycles (R191, R257, R282). -/
def State.periodic (s : State) (core : Nat) : Out State :=
  let n := (s.core core).cyc
  andThen (if n % 1024 = 0 then execEnergyRefill core s else .next s) (fun s =>
    if n % 256 = 0 then andThen (execPolledWatch core s) (execScrubPass core) else .next s)

/-- A cycle of a core in the schedule. -/
def State.passes (s : State) (core : Nat) : State := (s.cycle core).ltTouch core

/-- A cycle of a core's pipe, but for the packet that performs in it: contexts go on, entries drain, the cluster's port serves, and
the foot injects. -/
def State.beforeTurn (s : State) (core : Nat) : State :=
  ((((s.wakeCore core).drainCycle core).fetchCycle (clusterOf core)).footTurn core)

/-- A turn of a core: a cycle of its pipe passes, and one packet performs; no cycle passes while its clock stands (R389). -/
def State.coreTurn (s : State) (core : Nat) : Out State :=
  if s.clockStops core then .next s
  else
    let s := s.beforeTurn core
    match s.choose core with
    | none => (s.passes core).periodic core
    | some cid => andThen ((s.passes core).performOf cid) (fun t => t.periodic core)

/-! ### The schedule (log 1) -/

/-- The first entry after a core, wrapping. -/
def firstAfter (n : Nat) (l : List Nat) : Option Nat :=
  match l.find? (fun k => decide (n < k)) with
  | some k => some k
  | none => l.head?

/-- The core whose turn comes next: one that holds a thread. -/
def State.nextCore (s : State) : Option Nat :=
  firstAfter s.here ((List.filter (fun (e : Nat × Ctx) => e.2.holdsThread && isCore (coreOf e.1)) s.ctxs).map (fun e => coreOf e.1))

/-- The step of the n-th message in flight. -/
def State.msgStep (s : State) (n : Nat) : Body → Out State
  | .req r => match r.op with
    | .load .. | .prefetch => execHomeLoad n s
    | .store .. => execHomeWriteBack n s
    | .ldf | .claim => execHomeLdf n s
    | .ldff => execHomeLdff n s
    | .stf _ => execHomeStf n s
    | .sete => execHomeSete n s
    | .setf => execHomeSetf n s
    | .reserve .. => execHomeAtomReserve n s
    | .release _ => execHomeAtomRelease n s
    | .watch => execHomeWatch n s
    | .unwatch => execHomeUnwatch n s
    | .waita => execHomeWaitaRead n s
    | .flush => execHomeFlush n s
    | .binit _ => execHomeBinit n s
    | .arv .. => execHomeArv n s
    | .bwt _ => execHomeBwt n s
    | .msg => execMessageAccept n s
    | .launch _ => execHomeWriteBack n s
  | .reply .. | .answer .. => execLateValueReturn n (Config.freeDelay s.turn) s
  | .ack .. => execAcknowledgementArrival n (Config.freeDelay s.turn) s
  | .fault .. => execLateFaultReport n s
  | .refuse _ => execRequestRefused n s
  | .inval .. => execInvalidation n s
  | .drop .. => execDropNotice n s
  | .wake _ => execWatchWake n s
  | .orphan .. => execOrphanMessage n s
  | .send .. => execMessageAccept n s
  | .timed .. => execTimedMessageArrive n s
  | .port .. => execPortWordArrive n s
  | .migrate _ => execMigrationArrival n s
  | .spawn _ => execSpawnPushArrival n s
  | .steal .. => execStealAnswer n s
  | .stolen .. => execStolenTasksArrival n s
  | .announce .. => execAnnouncementReceive n s
  | .backInval .. => execBackInvalidationAck n s

/-- A step of a context that waits for nothing but its time: the n-th in a round. -/
def State.ctxStep (s : State) (cid n : Nat) : Out State :=
  match n % 9 with
  | 0 => execLeaveLate cid s
  | 1 => execRetire cid s
  | 2 => execKillWaveFoot cid s
  | 3 => execThreadDepart cid s
  | 4 => execPreemptSuspend cid s
  | 5 => execStampDraw cid s
  | 6 => execCpushDurable cid s
  | 7 => match (s.ctx cid).run with
    | .waiting (.align _) => execAlignRelease cid s
    | _ => execContextWake cid s
  | _ => execWithdraw cid s

/-- A step of a core's own units: the n-th, with k the count of the times that it has come round. -/
def State.coreStep (s : State) (core n k : Nat) : Out State :=
  let c := s.core core
  match n % 32 with
  | 0 => execLateValueLand core s
  | 1 => execLandingDrain core s
  | 2 => execMultiplyDone core s
  | 3 => execDivideDone core s
  | 4 => execWcbSend core s
  | 5 => execRequestResend core s
  | 6 => execMessageResend core s
  | 7 => execMigrationResend core s
  | 8 => execArrivalMove core s
  | 9 => execInboxRefill core s
  | 10 => execParityUpdate core (BitVec.ofNat 2 k) s
  | 11 => execScrubRequestBlock core s
  | 12 => execVectorComplete core (k % (c.vq.length + 1)) s
  | 13 => execVectorFault core (k % (c.vq.length + 1)) s
  | 14 => execCopyPieceDone core (k % (c.copies.length + 1)) 0 s
  | 15 => execCopyComplete core (k % (c.copies.length + 1)) s
  | 16 => execCopyFault core (k % (c.copies.length + 1)) s
  | 17 => execStagedEnter core s
  | 18 => execMatrixStart core s
  | 19 => execPlaneLoadDone core s
  | 20 => execKstepDone core s
  | 21 => execMatrixComplete core s
  | 22 => execMatrixFault core s
  | 23 => execBankPowerUpDone core s
  | 24 => execBankPowerDown core s
  | 25 => execFirmwareFault core s
  | 26 => if k % 2 = 0 then execTraceRecordWrite core s else .next (s.traceStep core)
  | 27 => execTraceFault core s
  | 28 => execDelegationPresent core s
  | 29 => execZeroLookaheadRound core s
  | 30 => execEndOfTime core s
  | _ => match c.lt with
    | some t => match t.outs[k % (t.outs.length + 1)]? with
      | some o => execAnnouncement core o.dst s
      | none => .next s
    | none => .next s

/-- Every queued task has waited for 4,096 more cycles (R43). -/
def State.ages (s : State) : Out State :=
  s.dies.foldl (fun o e => (List.range e.2.queue.length).foldl (fun o k => andThen o (execTaskAge e.1 k)) o) (.next s)

/-- The cluster of a die whose dispenser binds next: the first that a queued task may go to, else the n-th. -/
def State.binder (s : State) (die n : Nat) : Nat :=
  let cls := clustersOfDie die
  (cls.find? (fun cl => (s.die die).queue.any (fun t => (s.target cl t).isSome))).getD (cls.getD (n % 48) 0)

/-- A step of the dies, the partitions, the clusters and the hubs: the n-th in a round. -/
def State.packStep (s : State) (n : Nat) : Out State :=
  let k := n / 19
  let part := if s.whole then 0xFF else k % 4
  match n % 19 with
  | 0 => execLaunchAccept part s
  | 1 => execLaunchSweep part s
  | 2 => match s.launches[k % (s.launches.length + 1)]? with
    | some l => execTaskGenerate l.num s
    | none => .next s
  | 3 => execTaskBind (s.binder (k % 8) (k / 8)) s
  | 4 => execRoutineBind (k % 384) s
  | 5 => execStealRequest (k % 8) s
  | 6 => execStealBackoff (k % 8) s
  | 7 => execSpawnerRescue (k % 8) s
  | 8 => execEnergyInterval (k % 8) s
  | 9 => execUnwindChoose (BitVec.ofNat 8 k) s
  | 10 => execHostMessageSend (k % 4) s
  | 11 => execUnitReady (Config.freeUnit k) s
  | 12 => execFetchServe (k % 384) s
  | 13 => execFetchFill (k % 384) s
  | 14 => match (s.cluster (k % 384)).want with
    | [] => if k % 1024 = 0 then s.ages else .next s
    | e :: _ => execInstructionCacheFill (k % 384) e.2 s
  | 15 => if (s.cluster (k % 384)).stopped then execFrequencyResume (k % 384) s else .next s
  | 16 => .next (s.readLaunchw (k % 4))
  | 17 => .next s.trust
  | _ => match s.beat with
    | some ns => execCorrectionBeat ns s
    | none => .next s

/-- A turn of the next core that holds a thread, or, since time goes on without one, of core 0. -/
def State.anyTurn (s : State) : Out State :=
  let core := s.nextCore.getD 0
  { s with cur := core * 16 }.coreTurn core

/-- What the machine does at its n-th own step: a turn of a core, a message in flight, a step of a core, or a step of the
package. -/
def State.selfStep (s : State) (n : Nat) : Out State :=
  let k := n / 4
  match n % 4 with
  | 0 => s.anyTurn
  | 1 =>
    let m := k % (s.net.length + 1)
    match s.net[m]? with
    | some x => s.msgStep m x.body
    | none => s.anyTurn
  | 2 =>
    -- 112 steps of the units of a core, then 144 of its contexts, then the next core
    let w := s.cores.length + 1
    match s.cores[k / 256 % w]? with
    | some e =>
      if k % 256 < 112 then s.coreStep e.1 (k % 256) (k / 256 / w * 4 + k % 256 / 32) else s.ctxStep (e.1 * 16 + k % 16) ((k % 256 - 112) / 16)
    | none => .next s
  | _ => s.packStep k

/-- What a step does: the head of the agenda when it holds one, else the machine's own choice. An instruction word is no step of
the device. -/
def State.chosenStep (s : State) : Out State :=
  match s.agenda with
  | .event i :: rest => if i.isEvent then exec i { s with agenda := rest } else .fault .notAStep
  | .turn core :: rest => { s with agenda := rest, cur := core * 16 }.coreTurn core
  | .packet cid :: rest => { s with agenda := rest }.performOf cid
  | .sent cid :: rest => andThen ({ s with agenda := rest, slow := true }.performOf cid) (fun t => .next { t with slow := s.slow })
  | .word fn :: rest => .next ({ s with agenda := rest }.readLaunchw fn)
  | .read fn off :: rest => { s with agenda := rest }.readBar fn off
  | .trust :: rest => .next { s with agenda := rest }.trust
  | .trace core :: rest => .next ({ s with agenda := rest }.traceStep core)
  | [] => { s with turn := s.turn + 1 }.selfStep s.turn

/-- A step, after which the cores with local time look at their clocks. -/
def watched (o : Out State) : Out State := andThen o (fun t => .next t.ltAll)

/-- THE NEXT STEP. -/
def State.advanceStep (s : State) : Out State := watched s.chosenStep

/-! ### Placing a word where the next step fetches it -/

/-- Where `withFetchWord` places a word. -/
def probePc : Addr48 := 0x10000

/-- The page of that address in the address space of core 0x200's context 0: its frame is in a stack of the core's die. -/
def State.probePage (s : State) : Page := ⟨spaceOf (s.partOf 1) 0, false, 1, 3 * 2 ^ 20 + 1, true, true, true, false, false⟩

/-- Core 0x200, context 0 of it, about to inject and perform the word at `probePc` in the next turn; the word's block is in its
fetch buffer. -/
def State.placed (s : State) (w : Nat) : State :=
  { s with
    turn := 0
    agenda := []
    cur := 0
    named := s.named + 1
    mem := s.mem.put (s.probePage.key 0) ((List.range 4).map (fun k => BitVec.ofNat 8 (w / 2 ^ (8 * k))))
    pages := s.probePage :: s.pages
    ctxs := [(0x2000, { Ctx.zero with
      run := .runnable
      fetchPc := probePc
      fbuf := [(spaceOf (s.partOf 1) 0 * 2 ^ 48 + probePc.toNat) / 64]
      th := { Thread.zero with tid := s.named + 1, pc := probePc } })]
    cores := s.cores.set 0x200 { s.core 0x200 with
      cyc := 0, delegq := [], presented := none, gangStopped := false, dbg := Core.zero.dbg }
    clusters := s.clusters.set 48 { s.cluster 48 with stopped := false } }

end Sys2Proof.Machine
end

