-- ==== Sys2Proof/Safety.lean ====
section
/-! DEFINITION. The words in which claims about the machine are stated: what a finished packet is, what two states share,
when operands can be had, and the results of the integer rules written again over unbounded numbers, as R119 reads them. -/

namespace Sys2Proof.Machine

open Sys2Proof

/-! ### What a claim says of a state -/

/-- Memory has its canonical form. -/
abbrev State.MemOk (s : State) : Prop := s.mem.wf = true

/-- A core but for its trace encoder, which notes what the core does (R397). -/
def Core.untraced (c : Core) : Core := { c with trace := [], trclost := 0, traceGap := false, traced := (0, 0) }

/-- A thread but for its program counter, its register store and its checker. -/
def Thread.shell (t : Thread) : Thread := { t with pc := 0, gpr := [], sig := Thread.zero.sig }

/-- Two states differ in the running context, and in what the trace encoder of a core notes, at most: memory, every message
in flight, every other context, every core, die, cluster, launch and function are the same. -/
def State.OnlyMe (s t : State) : Prop :=
  { t with ctxs := [], cores := [] } = { s with ctxs := [], cores := [] }
    ∧ (∀ cid, cid ≠ s.cur → t.ctx cid = s.ctx cid) ∧ (∀ k, (t.core k).untraced = (s.core k).untraced)

/-- The checker does not stop the packet (R83, R89). -/
abbrev State.Signed (s : State) (i : Instr) (taken : Bool) : Prop := s.sigFails i taken = false

/-- A register whose value stands in the running context: a plain one, not awaiting a late value (R74). -/
abbrev State.Has (s : State) (r : Reg) : Prop := r.srcOk = true ∧ s.lateReg r = none

/-- The state in which an instruction that began at s, and whose own effect gives s', is done and the thread goes on at npc
(R82, R83, R87). -/
def State.finished (s : State) (i : Instr) (taken : Bool) (npc : Addr48) (s' : State) : State :=
  (if s.th.sig.en then s'.withTh (fun t => { t with sig := { s.sigAfter i taken with en := t.sig.en } }) else s').advance i npc taken

/-- The same for an instruction that goes on at PC + 4. -/
def State.ended (s : State) (i : Instr) (s' : State) : State := s.finished i false (nextPc s.th.pc) s'

/-- What an instruction leaves as it was: everything but the running context (`OnlyMe`), its thread's state but the program
counter, the register store and the checker, every general register but those listed, as a packet reads it, and memory. -/
structure State.Frame (s t : State) (rs : List (Fin 16)) : Prop where
  others : s.OnlyMe t
  shell : t.th.shell = s.th.shell
  regs : ∀ n, n ∉ rs → t.me.view n = s.me.view n
  mem : ∀ a, t.mem.read a = s.mem.read a

/-- The general register that a destination field names. -/
def regsOf : Reg → List (Fin 16)
  | .g n => [n]
  | _ => []

/-- The landing entry that the packet's result for register r fills, if it holds one, stands behind no filled entry of r. -/
def landsLast (q : BitVec 8) (r : Fin 16) : List Landing → Bool
  | [] => true
  | e :: rest =>
    if e.seq == q && e.reg == r && e.val == .reserved then rest.all (fun f => f.reg != r || f.val == .reserved)
    else landsLast q r rest

/-! ### One step -/

/-- The core whose turn the next step is, by the agenda or by the machine's own schedule, and the state in which the turn begins. -/
def State.turnNext (s : State) : Option (Nat × State) :=
  match s.agenda with
  | .turn core :: rest => some (core, { s with agenda := rest, cur := core * 16 })
  | [] => if s.turn % 4 = 0 then s.nextCore.map (fun core => (core, { s with turn := s.turn + 1, cur := core * 16 })) else none
  | _ => none

/-- The next step is a turn of core `core`, and u is the state in which a context's oldest packet performs in it: the pipe of the
core has gone on by a cycle (`beforeTurn`, `passes`) and the context may perform. -/
structure State.Turn (s u : State) (core : Nat) : Prop where
  next : ∃ v cid, s.turnNext = some (core, v) ∧ v.clockStops core = false ∧ (v.beforeTurn core).choose core = some cid
    ∧ u = { (v.beforeTurn core).passes core with cur := cid }
  may : u.mayPerform u.cur = true

/-- Nothing stands before the packet's own instruction: no older packet has still to certify where this one stops, no item 1 or 2 of
R215 is pending, context 0 is not presented with a delegation, no refused request asks for a park, and the packet carries no cause
from stage 6. -/
structure State.Opens (u : State) : Prop where
  older : u.me.retiring = [] ∨ u.standing = false
  first : u.takeFirst u.cur = none
  free : u.presentNow = false
  park : u.me.parkDue = none
  carried : u.me.carried = none

/-- Nothing at the packet's boundary comes in place of its own outcome t: no comparator, no pending event and no pre-emption; and it
stops at no boundary before older packets. -/
structure State.Plain (u t : State) : Prop where
  bkpt : u.bkptNow = none
  sig : u.sigNow = none
  async : u.me.asyncDue u.cur = false
  preempt : u.me.preempt = false
  done : u.causeOf t = none
  goes : u.me.retiring = [] ∨ u.stops t = false

/-- A packet whose word decodes to i: exec of i, with a thread's engine state reloaded for an instruction of the engines, then what
the packet's boundary makes of it. -/
def State.runs (u : State) (i : Instr) : Out State :=
  andThen (exec i (if usesEngines i then u.reloadEngine else u)) (fun t =>
    if !u.me.retiring.isEmpty && u.stops t then u.waitFor .older else .next (u.settleOwn t))

/-! ### The integer results over unbounded numbers (R119, R122 to R134) -/

/-- An integer as a register value: its low 64 bits. -/
def low64 (z : Int) : Word := BitVec.ofInt 64 z

/-- sext(v, 32) of a number. -/
def sext32 (v : Nat) : Word := BitVec.ofInt 64 (if v % 2 ^ 32 < 2 ^ 31 then (v % 2 ^ 32 : Nat) else ((v % 2 ^ 32 : Nat) : Int) - 2 ^ 32)

/-- low(v, 32) of a register value. -/
def low32 (v : Word) : Nat := v.toNat % 2 ^ 32

/-- The value of low(v, 32) read as signed. -/
def sgn32 (v : Word) : Int := (sext32 v.toNat).toInt

/-- A relation's value. -/
def rel (p : Prop) [Decidable p] : Word := if p then 1 else 0

/-- The number whose bit n - 1 - k is bit k of v. -/
def mirror (n v : Nat) : Nat := ((List.range n).map (fun k => if v.testBit k then 2 ^ (n - 1 - k) else 0)).sum

/-- An instruction that reads slots a and b and writes d: its fields (`zr` for a slot it does not have), and the value that
the rules give for the values of a and b. -/
structure AluForm where
  d : Reg
  a : Reg
  b : Reg
  f : Word → Word → Word

/-- The same for an instruction that also reads its old d, as slot c. -/
structure AluForm3 where
  d : Reg
  a : Reg
  b : Reg
  f : Word → Word → Word → Word

/-- R122, R123, R125: what the two-operand instructions of the integer unit write, from the values of a and b. -/
def aluForm : Instr → Option AluForm
  | .add d a b => some ⟨d, a, b, fun x y => low64 (x.toNat + y.toNat)⟩
  | .addw d a b => some ⟨d, a, b, fun x y => sext32 (low32 x + low32 y)⟩
  | .sub d a b => some ⟨d, a, b, fun x y => low64 ((x.toNat : Int) - y.toNat)⟩
  | .subw d a b => some ⟨d, a, b, fun x y => sext32 (low32 x + 2 ^ 32 - low32 y)⟩
  | .andR d a b => some ⟨d, a, b, fun x y => BitVec.ofNat 64 (x.toNat &&& y.toNat)⟩
  | .orR d a b => some ⟨d, a, b, fun x y => BitVec.ofNat 64 (x.toNat ||| y.toNat)⟩
  | .xorR d a b => some ⟨d, a, b, fun x y => BitVec.ofNat 64 (x.toNat ^^^ y.toNat)⟩
  | .andn d a b => some ⟨d, a, b, fun x y => BitVec.ofNat 64 (x.toNat &&& (2 ^ 64 - 1 - y.toNat))⟩
  | .orn d a b => some ⟨d, a, b, fun x y => BitVec.ofNat 64 (x.toNat ||| (2 ^ 64 - 1 - y.toNat))⟩
  | .shl d a b => some ⟨d, a, b, fun x y => if 64 ≤ y.toNat then 0 else low64 (x.toNat * 2 ^ y.toNat)⟩
  | .shlw d a b => some ⟨d, a, b, fun x y => if 32 ≤ low32 y then 0 else sext32 (low32 x * 2 ^ low32 y)⟩
  | .shr d a b => some ⟨d, a, b, fun x y => if 64 ≤ y.toNat then 0 else BitVec.ofNat 64 (x.toNat / 2 ^ y.toNat)⟩
  | .shrw d a b => some ⟨d, a, b, fun x y => if 32 ≤ low32 y then 0 else sext32 (low32 x / 2 ^ low32 y)⟩
  | .sha d a b => some ⟨d, a, b, fun x y => low64 (x.toInt / 2 ^ (min y.toNat 63))⟩
  | .shaw d a b => some ⟨d, a, b, fun x y => low64 (sgn32 x / 2 ^ (min (low32 y) 31))⟩
  | .rotl d a b => some ⟨d, a, b, fun x y =>
      BitVec.ofNat 64 (x.toNat * 2 ^ (y.toNat % 64) % 2 ^ 64 ||| x.toNat / 2 ^ (64 - y.toNat % 64))⟩
  | .rotlw d a b => some ⟨d, a, b, fun x y =>
      sext32 (low32 x * 2 ^ (low32 y % 32) % 2 ^ 32 ||| low32 x / 2 ^ (32 - low32 y % 32))⟩
  | .slt d a b => some ⟨d, a, b, fun x y => rel (x.toInt < y.toInt)⟩
  | .sltn d a b => some ⟨d, a, b, fun x y => rel (x.toNat < y.toNat)⟩
  | .seq d a b => some ⟨d, a, b, fun x y => rel (x.toNat = y.toNat)⟩
  | .sne d a b => some ⟨d, a, b, fun x y => rel (x.toNat ≠ y.toNat)⟩
  | .min d a b => some ⟨d, a, b, fun x y => low64 (min x.toInt y.toInt)⟩
  | .max d a b => some ⟨d, a, b, fun x y => low64 (max x.toInt y.toInt)⟩
  | .minn d a b => some ⟨d, a, b, fun x y => BitVec.ofNat 64 (min x.toNat y.toNat)⟩
  | .maxn d a b => some ⟨d, a, b, fun x y => BitVec.ofNat 64 (max x.toNat y.toNat)⟩
  | _ => none

/-- R124, R127, R131, R132, R134: what the shifts by a count, SPA and SPX, the bit counts, the immediate forms and the field
extractions write. -/
def fieldForm : Instr → Option AluForm
  | .shli d a n h => some ⟨d, a, .zr, fun x _ => low64 (x.toNat * 2 ^ (32 * h.toNat + n.toNat))⟩
  | .shliw d a n => some ⟨d, a, .zr, fun x _ => sext32 (low32 x * 2 ^ n.toNat)⟩
  | .shri d a n h => some ⟨d, a, .zr, fun x _ => BitVec.ofNat 64 (x.toNat / 2 ^ (32 * h.toNat + n.toNat))⟩
  | .shriw d a n => some ⟨d, a, .zr, fun x _ => sext32 (low32 x / 2 ^ n.toNat)⟩
  | .shai d a n h => some ⟨d, a, .zr, fun x _ => low64 (x.toInt / 2 ^ (32 * h.toNat + n.toNat))⟩
  | .shaiw d a n => some ⟨d, a, .zr, fun x _ => low64 (sgn32 x / 2 ^ n.toNat)⟩
  | .spa d a b => some ⟨d, a, b, fun x y => BitVec.ofNat 64 (2 ^ 63 + x.toNat % 2 ^ 12 * 2 ^ 19 + y.toNat % 2 ^ 19)⟩
  | .spx d a => some ⟨d, a, .zr, fun x _ =>
      if 2 ^ 63 ≤ x.toNat ∧ x.toNat < 2 ^ 63 + 2 ^ 31 then BitVec.ofNat 64 (x.toNat / 2 ^ 19 % 2 ^ 12) else low64 (-1)⟩
  | .clz d a => some ⟨d, a, .zr, fun x _ => BitVec.ofNat 64 (64 - bitlen x.toNat)⟩
  | .clzw d a => some ⟨d, a, .zr, fun x _ => BitVec.ofNat 64 (32 - bitlen (low32 x))⟩
  | .ctz d a => some ⟨d, a, .zr, fun x _ => BitVec.ofNat 64 (((List.range 64).find? (fun k => x.toNat.testBit k)).getD 64)⟩
  | .ctzw d a => some ⟨d, a, .zr, fun x _ => BitVec.ofNat 64 (((List.range 32).find? (fun k => x.toNat.testBit k)).getD 32)⟩
  | .pop d a => some ⟨d, a, .zr, fun x _ => BitVec.ofNat 64 ((List.range 64).filter (fun k => x.toNat.testBit k)).length⟩
  | .popw d a => some ⟨d, a, .zr, fun x _ => BitVec.ofNat 64 ((List.range 32).filter (fun k => x.toNat.testBit k)).length⟩
  | .brev d a => some ⟨d, a, .zr, fun x _ => BitVec.ofNat 64 (mirror 64 x.toNat)⟩
  | .brevw d a => some ⟨d, a, .zr, fun x _ => sext32 (mirror 32 (low32 x))⟩
  | .bswap d a => some ⟨d, a, .zr, fun x _ =>
      BitVec.ofNat 64 ((List.range 8).foldl (fun n k => n + x.toNat / 256 ^ (7 - k) % 256 * 256 ^ k) 0)⟩
  | .bswapw d a => some ⟨d, a, .zr, fun x _ =>
      sext32 ((List.range 4).foldl (fun n k => n + x.toNat / 256 ^ (3 - k) % 256 * 256 ^ k) 0)⟩
  | .addi d a i => some ⟨d, a, .zr, fun x _ => low64 ((x.toNat : Int) + i.toInt)⟩
  | .andi d a i => some ⟨d, a, .zr, fun x _ => BitVec.ofNat 64 (x.toNat &&& i.toNat)⟩
  | .ori d a i => some ⟨d, a, .zr, fun x _ => BitVec.ofNat 64 (x.toNat ||| i.toNat)⟩
  | .xori d a i => some ⟨d, a, .zr, fun x _ => BitVec.ofNat 64 (x.toNat ^^^ i.toNat)⟩
  | .slti d a i => some ⟨d, a, .zr, fun x _ => rel (x.toInt < i.toInt)⟩
  | .sltni d a i => some ⟨d, a, .zr, fun x _ => rel (x.toNat < i.toNat)⟩
  | .li d i => some ⟨d, .zr, .zr, fun _ _ => low64 i.toInt⟩
  | .lih d i => some ⟨d, .zr, .zr, fun _ _ => BitVec.ofNat 64 (i.toNat * 2 ^ 16)⟩
  | .addiw d a i => some ⟨d, a, .zr, fun x _ => sext32 (((x.toNat : Int) + i.toInt) % 2 ^ 32).toNat⟩
  | .ext d a p l => some ⟨d, a, .zr, fun x _ => BitVec.ofNat 64 (x.toNat / 2 ^ p.toNat % 2 ^ (l.toNat + 1))⟩
  | .extx d a p l => some ⟨d, a, .zr, fun x _ => low64 (signedOf (x.toNat / 2 ^ p.toNat) (l.toNat + 1))⟩
  | _ => none

/-- R126, R134: what SEL and INS write, from the old d and the values of a and b. -/
def mergeForm : Instr → Option AluForm3
  | .sel d a b => some ⟨d, a, b, fun c x y => if c.toNat ≠ 0 then x else y⟩
  | .ins d a p l => some ⟨d, a, .zr, fun c x _ =>
      low64 ((c.toNat : Int) - ((c.toNat / 2 ^ p.toNat % 2 ^ (l.toNat + 1) : Nat) : Int) * 2 ^ p.toNat
        + ((x.toNat % 2 ^ (l.toNat + 1) : Nat) : Int) * 2 ^ p.toNat)⟩
  | _ => none

/-- R129: the product that each multiply writes. -/
def mulForm : Instr → Option AluForm
  | .mul d a b => some ⟨d, a, b, fun x y => low64 (x.toNat * y.toNat)⟩
  | .mulw d a b => some ⟨d, a, b, fun x y => sext32 (low32 x * low32 y)⟩
  | .mulh d a b => some ⟨d, a, b, fun x y => low64 (x.toInt * y.toInt / 2 ^ 64)⟩
  | .mulhn d a b => some ⟨d, a, b, fun x y => BitVec.ofNat 64 (x.toNat * y.toNat / 2 ^ 64)⟩
  | .muli d a i => some ⟨d, a, .zr, fun x _ => low64 ((x.toNat : Int) * i.toInt)⟩
  | _ => none

/-- trunc(as / bs) and its remainder, with R130's cases for 0. -/
def quo (x y : Int) : Int := if y = 0 then -1 else x.tdiv y
def rmd (x y : Int) : Int := if y = 0 then x else x - y * x.tdiv y

/-- R130: the quotient or remainder that each divide writes. -/
def divForm : Instr → Option AluForm
  | .div d a b => some ⟨d, a, b, fun x y => low64 (quo x.toInt y.toInt)⟩
  | .rem d a b => some ⟨d, a, b, fun x y => low64 (rmd x.toInt y.toInt)⟩
  | .divn d a b => some ⟨d, a, b, fun x y => low64 (quo x.toNat y.toNat)⟩
  | .remn d a b => some ⟨d, a, b, fun x y => low64 (rmd x.toNat y.toNat)⟩
  | .divw d a b => some ⟨d, a, b, fun x y => sext32 ((quo (sgn32 x) (sgn32 y)) % 2 ^ 32).toNat⟩
  | .remw d a b => some ⟨d, a, b, fun x y => sext32 ((rmd (sgn32 x) (sgn32 y)) % 2 ^ 32).toNat⟩
  | .divnw d a b => some ⟨d, a, b, fun x y => sext32 ((quo (low32 x) (low32 y)) % 2 ^ 32).toNat⟩
  | .remnw d a b => some ⟨d, a, b, fun x y => sext32 ((rmd (low32 x) (low32 y)) % 2 ^ 32).toNat⟩
  | _ => none

/-- R137: the cycles of a division of x by y, lo being the most negative dividend. -/
def divLen (lo x y : Int) : Nat :=
  if y = 0 ∨ (x = lo ∧ y = -1) then 2 else 4 + (bitlen x.natAbs + 1 - bitlen y.natAbs + 1) / 2

/-- R137: L of each divide, from the values of a and b. -/
def divLens : Instr → Option (Word → Word → Nat)
  | .div .. | .rem .. => some (fun x y => divLen (-2 ^ 63) x.toInt y.toInt)
  | .divn .. | .remn .. => some (fun x y => divLen (-2 ^ 63) x.toNat y.toNat)
  | .divw .. | .remw .. => some (fun x y => divLen (-2 ^ 31) (sgn32 x) (sgn32 y))
  | .divnw .. | .remnw .. => some (fun x y => divLen (-2 ^ 31) (low32 x) (low32 y))
  | _ => none

/-- Two operand slots and a destination of an instruction that may pop lanes and ports or push to a port (R95, R114, R121), where
nothing comes before its pops: the privilege of a system register, the multiplier or a place in the divider's queue, an acquire under
way, a late value in an old d, the extension (`zr` for a slot that it does not have). -/
def laneForm (s : State) (i : Instr) : Option (Reg × Reg × Reg) :=
  match i with
  | .mfs d r => if ctxOf s.cur = 0 ∨ sysS r.toNat = false then some (.zr, .zr, d) else none
  | .mts a r => if (ctxOf s.cur = 0 ∨ sysSWrite r.toNat = false) ∧ s.sysWait r.toNat true = none then some (a, .zr, .zr) else none
  | .send a b | .tsend a b => if s.me.barred = none then some (a, b, .zr) else none
  | .vbcst _ g _ _ _ | .vsetk _ g _ => some (g, .zr, .zr)
  | .csetb a b _ _ _ | .csetd a b _ _ _ | .csetsScale a b _ _ | .csetsMcast a b _ _ | .cgo a b _ _ _ _ => some (a, b, .zr)
  | .mwl a b _ | .mma a b _ | .macp a b _ => if hasX s.here = true then some (a, b, .zr) else none
  | .mcfg a _ | .mclr a _ => if hasX s.here = true then some (a, .zr, .zr) else none
  | .home d a => some (a, .zr, d)
  | i =>
    let ops (q : AluForm) : Reg × Reg × Reg := (q.a, q.b, q.d)
    ((aluForm i).map ops).or (((fieldForm i).map ops).or
      (((mergeForm i).bind (fun q => if s.lateReg q.d = none then some (q.a, q.b, .zr) else none)).or
        (((mulForm i).bind (fun q => if s.mulFree = true then some (ops q) else none)).or
          ((divForm i).bind (fun q => if (s.core s.here).divLoad < 5 ∧ s.me.outld < 16 then some (ops q) else none)))))

/-! ### Memory operations (R180 to R211) -/

/-- A memory operation with a request to its home: the register that its value goes to, the registers it reads for its
address and its data, its address, its size and alignment, what it asks, and the scope at which it is a release. -/
structure MemForm where
  dst : Option (Fin 16)
  a : Reg
  b : Reg
  x : Word
  n : Nat
  op : ReqOp
  rel : Option Scope
  posted : Bool

/-- A displacement in units of n bytes, added to a base (R180). -/
def plusDisp (v : Word) (d : BitVec 10) (n : Nat) : Word := BitVec.ofInt 64 (v.toNat + d.toInt * n)

/-- The request that each instruction makes of the home of its address: loads, full-empty operations and barriers. -/
def memForm (s : State) : Instr → Option MemForm
  | .ld t a z _ _ d => some ⟨gReg t, a, .zr, plusDisp (s.plain a) d (sizeBytes z), sizeBytes z, .load (sizeBytes z) false, none, false⟩
  | .ldx t a z _ _ d => some ⟨gReg t, a, .zr, plusDisp (s.plain a) d (sizeBytes z), sizeBytes z, .load (sizeBytes z) true, none, false⟩
  | .st t a z o c d => some ⟨none, a, t, plusDisp (s.plain a) d (sizeBytes z), sizeBytes z,
      .store ((leBytes (sizeBytes z) (s.plain t).toNat).mapIdx (fun k b => (k, b))) 1, if o then some c else none, true⟩
  | .ldf t a _ _ d => some ⟨gReg t, a, .zr, plusDisp (s.plain a) d 8, 8, .ldf, none, false⟩
  | .ldff t a _ _ d => some ⟨gReg t, a, .zr, plusDisp (s.plain a) d 8, 8, .ldff, none, false⟩
  | .stf t a o c d => some ⟨none, a, t, plusDisp (s.plain a) d 8, 8, .stf (s.plain t), if o then some c else none, true⟩
  | .sete a => some ⟨none, a, .zr, s.plain a, 8, .sete, none, true⟩
  | .setf a => some ⟨none, a, .zr, s.plain a, 8, .setf, none, true⟩
  | .binit a b => some ⟨none, a, b, s.plain a, 16, .binit (s.plain b), none, true⟩
  | .arv d a o c n => some ⟨gReg d, a, .zr, s.plain a, 16, .arv n.toNat (dieOf s.here) false, if o then some c else none, false⟩
  | .arvp a o c n => some ⟨none, a, .zr, s.plain a, 16, .arv n.toNat (dieOf s.here) true, if o then some c else none, true⟩
  | _ => none

/-- Nothing holds a memory operation back: its registers stand, no acquire is under way, its address is aligned, has a home and
lies outside the inbox ring, no ATOM or refused request of the context stands before it at that home, the thread does not travel
to it, what a release waits for is done, and the count that the operation enters has room (R74, R180 to R182, R177, R186, R189,
R242). -/
structure State.Clear (s : State) (f : MemForm) : Prop where
  regs : s.ready2 f.a f.b = none
  addr : s.addrFault f.x f.n f.n = none
  order : s.orderHeld s.cur (s.homeNow f.x) = false
  stays : f.op ≠ .sete → f.op ≠ .setf → s.travels s.cur f.x = true → s.homeNow f.x = s.here
  release : ∀ c, f.rel = some c → s.flushAll s.cur = s ∧ s.releaseWait c = none
  room : if f.posted then s.me.unack < 32 else s.me.outld < 16
  resv : (f.op = .ldf ∨ (f.op = .sete ∧ isPad f.x = false)) → s.th.resv.length < Config.resvMax
  object : ∀ b, f.op = .binit b → b.toNat % 2 ^ 20 ≠ 0 ∧ b.toNat < 2 ^ 21
  inPad : f.n = 16 → isPad f.x = true
  noWindow : isWindow s.cur f.x = false

/-- The request of a memory operation. -/
def State.reqOf (s : State) (f : MemForm) : Req := s.req f.x f.op f.dst

/-- The atomics: function, register of the value and the operand, address register, 8-byte form, release and its scope, and the
register of the compare value (R188). -/
structure AtomForm where
  fn : AtomFn
  t : Reg
  a : Reg
  wide : Bool
  o : Bool
  c : Scope
  u : Reg

/-- The form of each atomic. -/
def atomForm : Instr → Option AtomForm
  | .faa t a z o c => some ⟨.add, t, a, z, o, c, .zr⟩
  | .fxch t a z o c => some ⟨.xchg, t, a, z, o, c, .zr⟩
  | .fcas t a z o c => some ⟨.cas, t, a, z, o, c, regSucc t⟩
  | .fmin t a z o c => some ⟨.min, t, a, z, o, c, .zr⟩
  | .fmax t a z o c => some ⟨.max, t, a, z, o, c, .zr⟩
  | .fand t a z o c => some ⟨.and, t, a, z, o, c, .zr⟩
  | .forA t a z o c => some ⟨.or, t, a, z, o, c, .zr⟩
  | .fxor t a z o c => some ⟨.xor, t, a, z, o, c, .zr⟩
  | _ => none

/-- R188: the new value of the n-bit part that an atomic acts on, from the old one v, the operand r and the compare value c. -/
def atomNew (n : Nat) (fn : AtomFn) (v r c : Nat) : Nat :=
  let sg (w : Nat) : Int := signedOf w n
  match fn with
  | .add => (v + r) % 2 ^ n
  | .xchg => r % 2 ^ n
  | .cas => if v = c % 2 ^ n then r % 2 ^ n else v
  | .min => if sg v ≤ sg r then v else r % 2 ^ n
  | .max => if sg v ≤ sg r then r % 2 ^ n else v
  | .and => v &&& r % 2 ^ n
  | .or => v ||| r % 2 ^ n
  | .xor => v ^^^ r % 2 ^ n

/-! ### Vector commands (R279 to R300) -/

/-- A vector instruction: its slots, its energy class, the alignment of its address when it accesses memory (else 0), and the type
whose elements its slot b numbers, if it does. -/
structure VecForm where
  a : Reg
  b : Reg
  e : BitVec 2
  al : Nat
  el : Option VType

/-- The form of each vector instruction. -/
def vecForm : Instr → Option VecForm
  | .vaddFp _ _ _ _ _ e | .vsubFp _ _ _ _ _ e | .vmulFp _ _ _ _ _ e | .vfma _ _ _ _ _ _ e | .vfms _ _ _ _ _ _ e
  | .vminFp _ _ _ _ _ e | .vmaxFp _ _ _ _ _ e | .vabsFp _ _ _ _ e | .vnegFp _ _ _ _ e | .vdiv _ _ _ _ _ e
  | .vsqrt _ _ _ _ e | .vrcp _ _ _ _ e | .vrsq _ _ _ _ e | .vexp2 _ _ _ _ e | .vlog2 _ _ _ _ e | .vcvt _ _ _ _ _ e
  | .vcmpFp _ _ _ _ _ _ e | .vredFp _ _ _ _ _ e | .vaddInt _ _ _ _ _ e | .vsubInt _ _ _ _ _ e | .vmulInt _ _ _ _ _ e
  | .vminInt _ _ _ _ _ e | .vmaxInt _ _ _ _ _ e | .vabsInt _ _ _ _ e | .vnegInt _ _ _ _ e | .vand _ _ _ _ _ e
  | .vor _ _ _ _ _ e | .vxor _ _ _ _ _ e | .vandn _ _ _ _ _ e | .vshl _ _ _ _ _ e | .vshr _ _ _ _ _ e | .vsha _ _ _ _ _ e
  | .vcmpInt _ _ _ _ _ _ e | .vredInt _ _ _ _ _ e | .vsel _ _ _ _ _ e | .vperm _ _ _ _ _ e | .vslup _ _ _ _ _ e
  | .vsldn _ _ _ _ _ e | .viota _ _ _ e | .vpopk _ _ _ e | .vmovk _ _ e => some ⟨.zr, .zr, e, 0, none⟩
  | .vld _ g _ _ e | .vst _ g _ _ e => some ⟨g, .zr, e, 256, none⟩
  | .vlds _ g q _ t e | .vsts _ g q _ t e => some ⟨g, g4 q, e, t.bits / 8, none⟩
  | .vgath _ g _ _ t e | .vscat _ g _ _ t e => some ⟨g, .zr, e, t.bits / 8, none⟩
  | .vldk _ g e | .vstk _ g e => some ⟨g, .zr, e, 8, none⟩
  | .vbcst _ g _ _ e | .vsetk _ g e => some ⟨g, .zr, e, 0, none⟩
  | .vins _ g b t e => some ⟨g, g4 b, e, 0, some t⟩
  | .vext _ b t e => some ⟨.zr, g4 b, e, 0, some t⟩
  | _ => none

/-- A vector command may be taken: no acquire holds a memory command back and its address passes the checks of R293, its element
exists, the queue has room, so has the thread's record lane for a VEXT, and the budget covers it (R281, R282, R293, R296, R297). -/
structure State.VecClear (s : State) (i : Instr) (f : VecForm) (x y : Word) : Prop where
  order : f.al ≠ 0 → s.me.barred = none
  addr : f.al ≠ 0 → x.toNat % f.al = 0 ∧ 2 ^ 63 ≤ x.toNat ∧ x.toNat < 2 ^ 63 + 2 ^ 31 ∧ x.toNat / 2 ^ 19 % 2 ^ 12 = s.here
    ∧ s.retainedFor s.cur s.here = false
  elem : ∀ t, f.el = some t → y.toNat < t.count
  room : (s.core s.here).vq.length < 16
  lane : (∃ d b t e, i = .vext d b t e) → s.vrecords s.cur < 8
  energy : s.unbudgeted s.cur = true ∨ (s.core s.here).ecost.toNat / 2 ^ (16 * f.e.toNat) % 2 ^ 16 ≤ s.th.ebudget.toNat

/-- An integer element operation: its registers and mask, its type, and the result from two elements as numbers (R289). -/
structure VecInt where
  d : BitVec 3
  a : BitVec 3
  b : BitVec 3
  m : BitVec 3
  ty : VType
  f : Nat → Nat → Nat

/-- The value of an element of an integer type. -/
def elInt (t : VType) (x : Nat) : Int := if t = .n32 then (x : Int) else signedOf x t.bits

/-- R289: what the two-operand integer instructions write in each active element, n being its width. -/
def vecInt : Instr → Option VecInt
  | .vaddInt d a b m t _ => some ⟨d, a, b, m, t, fun p q => (p + q) % 2 ^ t.bits⟩
  | .vsubInt d a b m t _ => some ⟨d, a, b, m, t, fun p q => (p + 2 ^ t.bits - q) % 2 ^ t.bits⟩
  | .vmulInt d a b m t _ => some ⟨d, a, b, m, t, fun p q => p * q % 2 ^ t.bits⟩
  | .vminInt d a b m t _ => some ⟨d, a, b, m, t, fun p q => if elInt t p ≤ elInt t q then p else q⟩
  | .vmaxInt d a b m t _ => some ⟨d, a, b, m, t, fun p q => if elInt t p ≤ elInt t q then q else p⟩
  | .vand d a b m t _ => some ⟨d, a, b, m, t, fun p q => p &&& q⟩
  | .vor d a b m t _ => some ⟨d, a, b, m, t, fun p q => p ||| q⟩
  | .vxor d a b m t _ => some ⟨d, a, b, m, t, fun p q => p ^^^ q⟩
  | .vandn d a b m t _ => some ⟨d, a, b, m, t, fun p q => p &&& (2 ^ t.bits - 1 - q)⟩
  | .vshl d a b m t _ => some ⟨d, a, b, m, t, fun p q => if t.bits ≤ q then 0 else p * 2 ^ q % 2 ^ t.bits⟩
  | .vshr d a b m t _ => some ⟨d, a, b, m, t, fun p q => if t.bits ≤ q then 0 else p / 2 ^ q⟩
  | .vsha d a b m t _ => some ⟨d, a, b, m, t, fun p q => (signedOf p t.bits / 2 ^ (min q (t.bits - 1)) % 2 ^ t.bits).toNat⟩
  | _ => none

/-! ### Numbers of a format (R260, R265) and results over them (R286, R287) -/

/-- The fields of a number of an IEEE format: exponent and fraction. -/
def fpExp (w : Fmt) (n : Nat) : Nat := n / 2 ^ w.f % 2 ^ w.e
def fpFrac (w : Fmt) (n : Nat) : Nat := n % 2 ^ w.f

/-- The sign bit is 1. -/
def fpNeg (w : Fmt) (n : Nat) : Bool := n / 2 ^ (w.e + w.f) % 2 == 1

/-- The number that bits of a format stand for; none for an infinity or a NaN. -/
def fpNum (w : Fmt) (n : Nat) : Option Rat :=
  if fpExp w n = 2 ^ w.e - 1 then none
  else
    let m : Nat := if fpExp w n = 0 then fpFrac w n else fpFrac w n + 2 ^ w.f
    let v : Rat := (m : Rat) * 2 ^ (max 1 (fpExp w n)) / 2 ^ (2 ^ (w.e - 1) - 1 + w.f)
    some (if fpNeg w n then -v else v)

/-- A NaN, a quiet one, an infinity, and the default NaN. -/
def fpNan (w : Fmt) (n : Nat) : Prop := fpExp w n = 2 ^ w.e - 1 ∧ fpFrac w n ≠ 0
def fpQuiet (w : Fmt) (n : Nat) : Prop := fpNan w n ∧ fpFrac w n / 2 ^ (w.f - 1) = 1
def fpInf (w : Fmt) (s : Bool) : Nat := (if s then 2 ^ (w.e + w.f) else 0) + (2 ^ w.e - 1) * 2 ^ w.f
def fpDefault (w : Fmt) : Nat := (2 ^ w.e - 1) * 2 ^ w.f + 2 ^ (w.f - 1)

/-- A floating-point instruction whose result is rounded (R286, R287): its registers (slot a again for one that it does not have), its mask
and its type. -/
structure FpForm where
  d : BitVec 3
  a : BitVec 3
  b : BitVec 3
  c : BitVec 3
  m : BitVec 3
  ty : VType

/-- The form of each. -/
def fpForm : Instr → Option FpForm
  | .vaddFp d a b m t _ | .vsubFp d a b m t _ | .vmulFp d a b m t _ | .vdiv d a b m t _ => some ⟨d, a, b, a, m, t⟩
  | .vfma d a b c m t _ | .vfms d a b c m t _ => some ⟨d, a, b, c, m, t⟩
  | .vsqrt d a m t _ | .vrcp d a m t _ | .vrsq d a m t _ | .vexp2 d a m t _ | .vlog2 d a m t _ => some ⟨d, a, a, a, m, t⟩
  | _ => none

/-- The exact result of an instruction on the numbers p, q and c is z; of a power or a logarithm, where it is rational. -/
def fpExact (i : Instr) (p q c z : Rat) : Prop :=
  match i with
  | .vaddFp .. => z = p + q
  | .vsubFp .. => z = p - q
  | .vmulFp .. => z = p * q
  | .vfma .. => z = p * q + c
  | .vfms .. => z = p * q - c
  | .vdiv .. => q ≠ 0 ∧ z = p / q
  | .vsqrt .. => 0 < z ∧ z * z = p
  | .vrcp .. => p ≠ 0 ∧ z = 1 / p
  | .vrsq .. => 0 < z ∧ z * z * p = 1
  | .vexp2 .. => ∃ j k : Nat, p = (j : Rat) - k ∧ z = 2 ^ j / 2 ^ k
  | .vlog2 .. => ∃ j k : Nat, p = 2 ^ j / 2 ^ k ∧ z = (j : Rat) - k
  | _ => False

/-- Operands that give the default NaN and NV. -/
def fpInvalid (i : Instr) (w : Fmt) (p q : Nat) : Prop :=
  match i with
  | .vaddFp .. => ∃ s, p = fpInf w s ∧ q = fpInf w (!s)
  | .vsubFp .. => ∃ s, p = fpInf w s ∧ q = fpInf w s
  | .vmulFp .. => ∃ s, (fpNum w p = some 0 ∧ q = fpInf w s) ∨ (p = fpInf w s ∧ fpNum w q = some 0)
  | .vdiv .. => (fpNum w p = some 0 ∧ fpNum w q = some 0) ∨ ∃ s t, p = fpInf w s ∧ q = fpInf w t
  | .vsqrt .. | .vrsq .. | .vlog2 .. => p = fpInf w true ∨ ∃ v, fpNum w p = some v ∧ v < 0
  | _ => False

/-- Operands that give an infinity of sign s and DZ. -/
def fpPole (i : Instr) (w : Fmt) (p q : Nat) (s : Bool) : Prop :=
  match i with
  | .vdiv .. => (∃ v, fpNum w p = some v ∧ v ≠ 0) ∧ fpNum w q = some 0 ∧ s = (fpNeg w p != fpNeg w q)
  | .vrcp .. | .vrsq .. => fpNum w p = some 0 ∧ s = fpNeg w p
  | .vlog2 .. => fpNum w p = some 0 ∧ s = true
  | _ => False

/-- R290: the relations by number, between two numbers. -/
def cmpRel {α : Type} [LT α] [LE α] (r : Nat) (p q : α) : Prop :=
  match r with
  | 0 => p = q
  | 1 => p ≠ q
  | 2 => p < q
  | 3 => p ≤ q
  | 4 => q < p
  | 5 => q ≤ p
  | _ => False

/-- The number that a DM8 byte stands for under a block scale (R261); none for an infinity or a NaN. -/
def dm8Num (n : Nat) (sc : Int) : Option Rat :=
  match dm8Get n with
  | .fin s m e => some ((if s then -1 else 1) * m / 64 * (10 : Rat) ^ (e + sc))
  | _ => none

/-- R292, R296, R297 and R298: the register, its type and its element j after an instruction that moves elements, that is not one
of masks. -/
def vecMove (th : Thread) (x y : Word) : Instr → Option (BitVec 3 × VType × (Nat → Nat))
  | .vsel d a b m t _ => some (d, t, fun j => if th.active m j then th.el t a j else th.el t b j)
  | .vperm d a b m t _ => some (d, t, fun j => if th.active m j then th.el t a (th.el .n32 b j % t.count) else th.el t d j)
  | .vslup d a b m t _ => some (d, t, fun j =>
      if th.active m j then (if th.el .n32 b 0 ≤ j then th.el t a (j - th.el .n32 b 0) else 0) else th.el t d j)
  | .vsldn d a b m t _ => some (d, t, fun j =>
      if th.active m j then (if j + th.el .n32 b 0 < t.count then th.el t a (j + th.el .n32 b 0) else 0) else th.el t d j)
  | .vbcst d _ m t _ => some (d, t, fun j => if th.active m j then x.toNat % 2 ^ t.bits else th.el t d j)
  | .vins d _ _ t _ => some (d, t, fun j => if j = y.toNat then x.toNat % 2 ^ t.bits else th.el t d j)
  | _ => none

/-! ### Homes -/

/-- A scratchpad word of a core whose banks are up and sound, and that no request waits for: its key is 8-byte aligned; memory has its
canonical form, as every step keeps it. -/
structure State.PadWord (s : State) (h k : Nat) : Prop where
  mem : s.MemOk
  pad : padKey k = true
  core : padCore k = h
  aligned : k % 8 = 0
  powered : (s.core h).powered = true
  groups : (s.core h).groups = []
  bad : (s.core h).badWords = []
  soft : (s.core h).softWords = []
  alone : ∀ w ∈ (s.core h).waits, w.key ≠ k

/-- The scratchpad of a core is up and sound, kept for no launch, without an inbox ring, and no boundary has failed. -/
structure State.PadSound (s : State) (h : Nat) : Prop where
  core : isCore h = true
  powered : (s.core h).powered = true
  groups : (s.core h).groups = []
  bad : (s.core h).badWords = []
  soft : (s.core h).softWords = []
  acc : (s.core h).badAcc = []
  kept : (s.core h).retained = none
  ring : (s.core h).ring = none
  links : s.failed = []

/-- n bytes from an address lie in a core's scratchpad (R31). -/
abbrev padBytes (h : Nat) (v : Word) (n : Nat) : Prop :=
  2 ^ 63 ≤ v.toNat ∧ v.toNat < 2 ^ 63 + 2 ^ 31 ∧ v.toNat / 2 ^ 19 % 2 ^ 12 = h ∧ v.toNat % 2 ^ 19 + n ≤ 2 ^ 19

/-- A request for a word of a home. -/
abbrev Req.at (r : Req) (k : Nat) (op : ReqOp) : Prop := r.key = k ∧ r.op = op

/-- Everything in memory but n bytes from k is as before. -/
def Memory.SameOutside (m m' : Memory) (k n : Nat) : Prop := ∀ a, a < k ∨ k + n ≤ a → m'.read a = m.read a

end Sys2Proof.Machine
end

