-- ==== Sys2Proof/Certificates/Slice0/Obligations.lean ====
section
/-! DEFINITION. The statements about the machine, one per obligation; what they speak of is defined in Safety. -/

open Sys2Proof Sys2Proof.Machine

/-! ### Encoding -/

/-- DECODE AND ENCODE AGREE: every well-formed instruction word, with every operand at every value that its encoding admits,
decodes to the instruction it encodes (R92 to R115, R166, R170). -/
def Obligations.DecodeOfEncode : Prop :=
  ∀ i : Instr, i.wf = true → i.isEvent = false → ∃ w, encode i = some w ∧ decode w = .ok i

/-- ONE MEANING PER WORD: a word that decodes is the word of the instruction it decodes to, which is well formed and no event;
so no two words share an instruction and no bit of a word is read twice or dropped. -/
def Obligations.EncodeOfDecode : Prop :=
  ∀ (w : Word32) (i : Instr), decode w = .ok i → encode i = some w ∧ i.wf = true ∧ i.isEvent = false

/-- Words that the spec writes out decode to the instructions that it names (R124, R127, R134, R140 to R142, R170, R171). -/
def Obligations.SpecWordsDecode : Prop :=
  decode 0x048540C2 = .ok (.shli (.g 4) (.g 5) 8 1)
    ∧ decode 0x054A5A00 = .ok (.spa (.g 10) (.g 10) (.g 11))
    ∧ decode 0x38A60C1C = .ok (.ext (.g 5) (.g 6) 12 7)
    ∧ decode 0x3864903C = .ok (.ins (.g 3) (.g 4) 16 15)
    ∧ decode 0x45100005 = .ok (.bne (.g 8) .zr 5)
    ∧ decode 0x5BFFFFFD = .ok (.j 0x3FFFFFD)
    ∧ decode 0x600E0000 = .ok (.jr (.g 14))
    ∧ decode 0x61C50080 = .ok (.jalr (.g 14) (.g 5))
    ∧ decode 0xC4000007 = .ok (.trap 7)
    ∧ decode 0xC4600001 = .ok (.brk 1)
    ∧ decode 0xC4200000 = .ok .tret

/-- R115, fate 1: a word of an unassigned major decodes to no instruction; and whatever word decodes to none raises ILLEGAL
with the word in DETAIL when a context performs it. -/
def Obligations.UnassignedWordsAreIllegal : Prop :=
  (∀ w : Word32, (w.toNat / 2 ^ 26 = 0 ∨ w.toNat / 2 ^ 26 = 0x0F ∨ (0x1C ≤ w.toNat / 2 ^ 26 ∧ w.toNat / 2 ^ 26 ≤ 0x1F)
      ∨ (0x2D ≤ w.toNat / 2 ^ 26 ∧ w.toNat / 2 ^ 26 ≤ 0x2F) ∨ (0x32 ≤ w.toNat / 2 ^ 26 ∧ w.toNat / 2 ^ 26 ≤ 0x37)
      ∨ w.toNat / 2 ^ 26 = 0x3E ∨ w.toNat / 2 ^ 26 = 0x3F) → ∃ e, decode w = .error e)
    ∧ (∀ (s : State) (w : Word32) e, s.fetched = some w → decode w = .error e →
      s.own = .next (s.trap .illegal (BitVec.ofNat 64 w.toNat)))


/-! ### The machine -/

/-- A STEP RUNS THE DECODED INSTRUCTION: in a turn of a core, and where the agenda asks for one context's packet, the packet that
performs runs exec of the instruction that its word decodes to, then what stands at its boundary; the turn ends with the core's
periodic work, and the cores with local time look at their clocks. With nothing else at the boundary the outcome is exec's own. The
word is that of the oldest injected packet, which the foot fetched as the four bytes at the address through an executable page,
little-endian (R4, R62, R70, R91, R215). The agenda and whose turn comes next are the model's choice (logs 1 and 41), and so is that
the word is read from memory at injection (log 61). -/
def Obligations.StepRunsDecoded : Prop :=
  (∀ (s u : State) (core : Nat) (w : Word32) (i : Instr), s.Turn u core → u.Opens → u.fetched = some w → decode w = .ok i →
      step s = watched (andThen (u.runs i) (fun t => t.periodic core)))
    ∧ (∀ (s : State) (cid : Nat) (rest : List Move) (w : Word32) (i : Instr), s.agenda = .packet cid :: rest →
      ({ s with agenda := rest }).mayPerform cid = true → ({ s with agenda := rest, cur := cid }).Opens →
      ({ s with agenda := rest, cur := cid }).fetched = some w → decode w = .ok i →
      step s = watched (({ s with agenda := rest, cur := cid }).runs i))
    ∧ (∀ (u t : State) (i : Instr), u.decoded = some i →
      exec i (if usesEngines i then u.reloadEngine else u) = .next t → u.Plain t → u.runs i = .next t)
    ∧ (∀ (u : State) (p : Packet) rest, u.me.injected = p :: rest → p.cause ≠ some .pageFault → u.fetched = some p.op)
    ∧ (∀ (s : State) (cid : Nat) (p : Page), s.pageOf (globalBase + s.asnOf cid * 2 ^ 48 + (s.ctx cid).fetchPc.toNat) = some p →
        p.x = true → ∃ q, ((s.inject cid).ctx cid).injected = (s.ctx cid).injected ++ [q] ∧ q.seq = (s.ctx cid).seq
          ∧ q.pc = (s.ctx cid).fetchPc
          ∧ q.op = wordOfBytes
              (s.mem.read (p.key (q.pc.toNat - p.va))) (s.mem.read (p.key (q.pc.toNat - p.va) + 1))
              (s.mem.read (p.key (q.pc.toNat - p.va) + 2)) (s.mem.read (p.key (q.pc.toNat - p.va) + 3)))

/-- NO INSTRUCTION ENDS A RUN: every instruction and every step of the device answers a next state in every state; so a step
stops only where an instruction word stands at the head of the agenda.

The head of the agenda is the next step, whatever it is: a step of the device runs as exec of it with the rest of the
agenda, and then the cores with local time look at their clocks; an instruction word stops the machine by name (log 1). -/
def Obligations.EveryStepAnswersNext : Prop :=
  ((∀ (i : Instr) (s : State), ∃ t, exec i s = .next t)
    ∧ ∀ s : State, (∃ t, step s = .next t)
      ∨ ∃ i rest, s.agenda = .event i :: rest ∧ i.isEvent = false ∧ step s = .fault .notAStep)
    ∧ (∀ (s : State) (i : Instr) (rest : List Move), s.agenda = .event i :: rest →
    (i.isEvent = true → step s = watched (exec i { s with agenda := rest })) ∧ (i.isEvent = false → step s = .fault .notAStep))

/-- AN INVARIANT THAT EVERY STEP KEEPS: memory keeps its canonical form.

The same for every single instruction and step of the device. -/
def Obligations.StepKeepsMemoryCanonical : Prop :=
  (∀ s t : State, s.MemOk → step s = .next t → t.MemOk)
    ∧ (∀ (i : Instr) (s t : State), s.MemOk → exec i s = .next t → t.MemOk)

/-- Right after power-up memory is canonical and lists nothing, no unit is ready, no context holds a thread, no launch runs and
nothing is in flight (R386). What a byte that nothing has written reads as (log 6), and that the units stand unpowered and the
tables empty (log 11), is the model's choice. -/
def Obligations.ResetIsEmpty : Prop :=
  State.reset.MemOk ∧ State.reset.ready = 0 ∧ (∀ cid, (State.reset.ctx cid).run = .vacant)
    ∧ (∀ k, (State.reset.core k).powered = false) ∧ State.reset.launches = [] ∧ State.reset.net = []
    ∧ (∀ a, State.reset.mem.read a = Memory.blank)

/-- The machine reads what it wrote: a byte of memory reads as last written, every other as before, and a write keeps the
canonical form; so does the write of several bytes, which read back as the little-endian number that they make (R4). -/
def Obligations.MemoryReadsBack : Prop :=
  ∀ (m : Memory) (k : Nat) (b : Byte) (n v : Nat), m.wf = true →
    (m.write k b).wf = true ∧ (m.write k b).read k = b ∧ (∀ a, a ≠ k → (m.write k b).read a = m.read a)
      ∧ (m.put k (leBytes n v)).wf = true ∧ (m.put k (leBytes n v)).nat k n = v % 256 ^ n
      ∧ (∀ a, a < k ∨ k + n ≤ a → (m.put k (leBytes n v)).read a = m.read a)


/-! ### Exceptions -/

/-- TRAP ENTRY (R219): a context with a handler, outside one, and not delegating the cause, enters it: EPC, CAUSE and DETAIL
are written, STATUS.IN rises, the checked block is closed and the pc is TVEC; younger packets are deleted, and the context leaves
the orders of TDEQ and SPAWN (R49, R363; that a spawner that traps loses its place is log 76); nothing else of the thread, no other
context and no byte of memory changes.

DELEGATION (R220): a context other than 0 that has no handler, is in one, or delegates the cause parks: EPC, CAUSE and
DETAIL are written, STATUS.IN stays, and its core queues the delegation for context 0, behind those already there.

FIRMWARE FAULT (R222): context 0 without a handler, or inside one, parks until its core has reported the cause and
restarted it; its thread is as it was. -/
def Obligations.CausesAreTaken : Prop :=
  (∀ (s : State) (c : Cause) (d : Word), s.th.tvec ≠ 0 → s.th.inTrap = false →
    (ctxOf s.cur = 0 ∨ bit (s.core s.here).deleg c.code.toNat = false) →
    (s.trap c d).th = { s.th with
        epc := s.th.pc.extractLsb' 2 46, cause := BitVec.ofNat 64 c.code.toNat, detail := d, inTrap := true,
        pc := s.th.tvec.zeroExtend 48 <<< 2, sig := { s.th.sig with isOpen := false } }
      ∧ (s.trap c d).me.run = .runnable ∧ (s.trap c d).me.landing = s.me.landing
      ∧ (∀ p ∈ (s.trap c d).me.injected, seqGt p.seq (s.seqNow - 1) = false)
      ∧ (s.leaveOrders s.cur).OnlyMe (s.trap c d))
    ∧ (∀ (s : State) (c : Cause) (d : Word), ctxOf s.cur ≠ 0 →
    (s.th.tvec = 0 ∨ s.th.inTrap = true ∨ bit (s.core s.here).deleg c.code.toNat = true) →
    (s.th.routine.isSome && s.th.tvec == 0) = false →
    (s.trap c d).th = { s.th with
        epc := s.th.pc.extractLsb' 2 46, cause := BitVec.ofNat 64 c.code.toNat, detail := d,
        sig := { s.th.sig with isOpen := false } }
      ∧ (s.trap c d).me.run = .parked .delegation
      ∧ ((s.trap c d).core s.here).delegq
          = (s.core s.here).delegq ++ [⟨some (ctxOf s.cur), c, .precise, 0, d⟩]
      ∧ (s.trap c d).mem = s.mem ∧ (∀ cid, cid ≠ s.cur → (s.trap c d).ctx cid = s.ctx cid))
    ∧ (∀ (s : State) (c : Cause) (d : Word), ctxOf s.cur = 0 → (s.th.tvec = 0 ∨ s.th.inTrap = true) →
    (s.th.routine.isSome && s.th.tvec == 0) = false →
    (s.trap c d).me.run = .parked (.restart c.code.toNat) ∧ (s.trap c d).th = s.th ∧ s.OnlyMe (s.trap c d))

/-- TRAP and BRK take their exception (R170), unless the core's debug module has claimed BREAK, where BRK gives a debug stop
(R394).

RETURN FROM AN EXCEPTION (R171, R220): TRET in a handler with every entry settled clears STATUS.IN and the scoreboard and
goes on at EPC; context 0 then releases the context whose delegation it handled, at its EPC, or past a TRAP or BRK of it.
With an unsettled entry it goes on at PC + 4 with STATUS.IN as it was; in a delegation the entries of both scoreboards are looked
at (log 73). Outside a handler it raises PRIVILEGE, with its word in DETAIL. -/
def Obligations.TrapBrkAndTret : Prop :=
  (∀ (n : BitVec 16) (s : State),
    exec (.trap n) s = .next (s.trap .trap (BitVec.ofNat 64 n.toNat))
      ∧ ((s.core s.here).dbg.claim = false → exec (.brk n) s = .next (s.trap .break_ (BitVec.ofNat 64 n.toNat)))
      ∧ ((s.core s.here).dbg.claim = true → ∃ t, exec (.brk n) s = .next t ∧ (t.core s.here).dbg.stopped = true
          ∧ (t.core s.here).dbg.why = 2 ∧ (t.core s.here).dbg.ctx = ctxOf s.cur
          ∧ { t.th with fpflags := 0 } = { s.th with fpflags := 0 } ∧ t.mem = s.mem))
    ∧ (∀ s : State,
    (s.th.inTrap = true → s.th.settled = true → (ctxOf s.cur = 0 → (s.ctx (s.scoreOwner s.cur)).th.settled = true) →
      ∃ t, exec .tret s = .next t ∧ t.th.inTrap = false ∧ t.th.score = [] ∧ t.th.pc = s.th.epc.zeroExtend 48 <<< 2
        ∧ t.mem = s.mem ∧ (s.me.run = .runnable → t.me.landing = s.me.landing)
        ∧ (∀ d n, ctxOf s.cur = 0 → bit s.th.cause 13 = true → (s.core s.here).presented = some d → d.src = some n →
            n ≠ 0 → n < 16 → (s.ctx (s.here * 16 + n)).run = .parked .delegation →
            (t.ctx (s.here * 16 + n)).run = .runnable
              ∧ (t.ctx (s.here * 16 + n)).th.pc = (s.ctx (s.here * 16 + n)).th.epc.zeroExtend 48 <<< 2
                  + (if d.cause = .trap ∨ d.cause = .break_ then 4 else 0)
              ∧ (t.core s.here).presented = none))
      ∧ (s.th.inTrap = true → (s.th.settled = false ∨ (ctxOf s.cur = 0 ∧ (s.ctx (s.scoreOwner s.cur)).th.settled = false)) → s.Signed .tret false → exec .tret s = .next (s.ended .tret s))
      ∧ (s.th.inTrap = false → exec .tret s = .next (s.trap .privilege 0xC4200000)))

/-- PRIVILEGE (R116): the instructions of context 0 alone, SPAWN and MIGR in context 0, system registers of access S, TRET and
SETTLE outside a handler, CRET outside compensation mode, and CPUSH, ACTB, MIGR, WFW and HALT in it, raise it with their
word in DETAIL and have no other effect. -/
def Obligations.PrivilegeIsChecked : Prop :=
  ∀ (s : State) (d a b : Reg) (e : BitVec 2) (f : BitVec 3) (m : BitVec 4) (n : BitVec 16) (r : BitVec 12),
    (ctxOf s.cur ≠ 0 → ∀ i ∈ [Instr.ctxs a b, .ctxr a, .prmt a, .scrub a n],
        exec i s = .next (s.trap .privilege ((encode i).getD 0 |>.zeroExtend 64)))
      ∧ (ctxOf s.cur = 0 → ∀ i ∈ [Instr.spawn a b f, .migr d a],
        exec i s = .next (s.trap .privilege ((encode i).getD 0 |>.zeroExtend 64)))
      ∧ (ctxOf s.cur ≠ 0 → r.toNat ∈ [0x012, 0x013, 0x01B, 0x01C, 0x024, 0x034, 0x060, 0x061, 0x070, 0x071, 0x080, 0x0B0] →
        ∀ i ∈ [Instr.mfs d r, .mts a r], exec i s = .next (s.trap .privilege ((encode i).getD 0 |>.zeroExtend 64)))
      ∧ (ctxOf s.cur ≠ 0 → r.toNat ∈ [0x011, 0x028, 0x0B1] →
        exec (.mts a r) s = .next (s.trap .privilege ((encode (.mts a r)).getD 0 |>.zeroExtend 64)))
      ∧ (s.th.inTrap = false → exec .tret s = .next (s.trap .privilege ((encode .tret).getD 0 |>.zeroExtend 64)))
      ∧ (s.th.inTrap = false → exec (.settle a m e) s = .next (s.trap .privilege ((encode (.settle a m e)).getD 0 |>.zeroExtend 64)))
      ∧ (s.th.comp = false → exec (.cret a) s = .next (s.trap .privilege ((encode (.cret a)).getD 0 |>.zeroExtend 64)))
      ∧ (s.th.comp = true → ∀ i ∈ [Instr.cpush a b, .actb d a],
        exec i s = .next (s.trap .privilege ((encode i).getD 0 |>.zeroExtend 64)))
      ∧ (s.th.comp = true → ctxOf s.cur ≠ 0 → ∀ i ∈ [Instr.migr d a, .wfw, .halt],
        exec i s = .next (s.trap .privilege ((encode i).getD 0 |>.zeroExtend 64)))


/-! ### Operands and results -/

/-- OPERANDS (R70, R74, R95, R96): registers that are no lane or port give their values, unless one awaits a late value, which
the instruction waits for; zr reads as zero, pc as the instruction's own address, and gt, for a packet that is injected now, as its
cluster's copy of GTIME, never more than 8 ns behind the furthest one (R388; log 87).

A RESULT REACHES ITS REGISTER (R73, R76, R77): after a general register is written it reads as the value and awaits nothing,
and every other general register reads as before; zr discards the value. Where the packet holds a reserved landing entry, the
entry stands behind no result of a younger packet (`landsLast`). -/
def Obligations.RegistersReadAndWrite : Prop :=
  ((∀ (s : State) (a b d : Reg), a.srcOk = true → b.srcOk = true → d.dstOk = true →
      (s.lateReg a = none → s.lateReg b = none → s.operands a b d = .ok s (s.plain a) (s.plain b))
        ∧ (∀ n, s.lateReg a = some n → s.operands a b d = .wait (.operand n))
        ∧ (∀ n, s.lateReg a = none → s.lateReg b = some n → s.operands a b d = .wait (.operand n)))
    ∧ ∀ (s : State) (n : Fin 16) (k : Fin 4) (v : Word), s.plain .zr = 0 ∧ s.plain .pc = BitVec.ofNat 64 s.th.pc.toNat
      ∧ s.plain .wid = s.th.wid ∧ s.plain (.ix k) = s.th.ix.get k.val 0
      ∧ (s.me.injected = [] → (s.plain .gt).toNat = max (s.cluster (clusterOf s.here)).ns.toNat (s.now.toNat - 8))
      ∧ (s.me.view n = some v → s.plain (.g n) = v ∧ s.lateReg (.g n) = none)
      ∧ (s.me.view n = none → s.lateReg (.g n) = some n))
    ∧ ((∀ (s : State) (n : Fin 16) (v : Word), landsLast s.seqNow n s.me.landing = true →
      (s.put (.g n) v).me.view n = some v ∧ (∀ m, m ≠ n → (s.put (.g n) v).me.view m = s.me.view m)
        ∧ (s.put (.g n) v).mem = s.mem ∧ (s.put (.g n) v).th.pc = s.th.pc)
    ∧ ∀ (s : State) (v : Word), s.put .zr v = s)

/-- LANES AND PORTS (R121, R202, R206): an instruction makes all its pops and its push at once, slot a before slot b, and until
every FIFO it reads holds what it pops and a port it writes has room it waits and has popped nothing; a port that leads nowhere
raises BAD_PORT with the register's number in DETAIL. So do the integer unit, multiplies and divides, MFS and MTS, SEND and TSEND,
and the commands of the vector, matrix and copy engines.

What a lane gives (R202): its oldest message's payload, the header in MSGHDR, and the message gone from it; a port gives its
oldest word (R206). The ib lane gives its hardware entries in order, whatever stands between them for other contexts, and then the
oldest pending entry of the overflow ring, which it marks consumed (R244, R245).

A PORT DESTINATION (R121, R206): the result goes to the facing FIFO as a word on its way, whose place is held until it
arrives; no register changes. -/
def Obligations.LanesAndPorts : Prop :=
  (∀ (i : Instr) (a b d : Reg) (s : State), laneForm s i = some (a, b, d) →
    (∀ r ∈ [a, b, d], s.badPort r = true → (∀ r' ∈ [a, b, d], s.badPort r' = true → r' = r) →
        exec i s = .next (s.trap .badPort (BitVec.ofNat 64 r.num)))
      ∧ ((∀ r ∈ [a, b, d], s.badPort r = false) → s.lateReg a = none → s.lateReg b = none →
        (s.lanesReady s.cur (some a) (some b) (some d) = false →
          exec i s = .next (s.withMe (fun c => { c with run := .waiting (.lanes (some a) (some b) (some d)) })))
        ∧ (s.lanesReady s.cur (some a) (some b) (some d) = true →
          s.operands a b d = .ok ((s.readOp a).2.readOp b).2 (s.readOp a).1 ((s.readOp a).2.readOp b).1)))
    ∧ (∀ (s : State) (m : Rec) (rest : List Rec) (d : Dir) (w : Word) (ws : List Word) (held : Nat),
    (s.th.mq = m :: rest → (s.popLane .mq).1 = m.data ∧ (s.popLane .mq).2.th = { s.th with mq := rest, msghdr := m.hdr }
        ∧ s.OnlyMe (s.popLane .mq).2)
      ∧ (s.th.vq = m :: rest → (s.popLane .vq).1 = m.data ∧ (s.popLane .vq).2.th = { s.th with vq := rest, msghdr := m.hdr }
        ∧ s.OnlyMe (s.popLane .vq).2)
      ∧ (s.th.cq = m :: rest → (s.popLane .cq).1 = m.data ∧ (s.popLane .cq).2.th = { s.th with cq := rest, msghdr := m.hdr }
        ∧ s.OnlyMe (s.popLane .cq).2)
      ∧ (s.fifo s.cur d = ⟨w :: ws, held⟩ → s.popLane (.port d) = (w, s.setFifo s.cur d ⟨ws, held⟩)))
    ∧ (∀ (s : State) (l1 l2 : List Ib) (m : Ib), (s.core s.here).ib = l1 ++ m :: l2 → (∀ e ∈ l1, e.ctx ≠ ctxOf s.cur) → m.ctx = ctxOf s.cur →
      (s.popLane .ib).1 = m.msg.data ∧ (s.popLane .ib).2.th = { s.th with msghdr := m.msg.hdr }
        ∧ ((s.popLane .ib).2.core s.here).ib = l1 ++ l2 ∧ (s.popLane .ib).2.mem = s.mem
        ∧ ∀ cid, cid ≠ s.cur → (s.popLane .ib).2.ctx cid = s.ctx cid)
    ∧ (∀ (s : State) (base size off : Nat) (rest : List Nat), (∀ e ∈ (s.core s.here).ib, e.ctx ≠ ctxOf s.cur) →
      s.ringOf s.here = some (base, size) → s.ringPending s.here (fun c => c == ctxOf s.cur) = off :: rest →
      (s.core (padCore (base + off))).groups = [] → (base + off) % 8 = 0 →
      (s.popLane .ib).1 = s.mem.word (base + off + 16) ∧ (s.popLane .ib).2.th = { s.th with msghdr := s.mem.word (base + off + 8) }
        ∧ (s.popLane .ib).2.mem = s.mem.put (base + off) (leBytes 8 (2 * 64 + ctxOf s.cur))
        ∧ ∀ cid, cid ≠ s.cur → (s.popLane .ib).2.ctx cid = s.ctx cid)
    ∧ (∀ (s : State) (d : Dir) (v : Word), s.facing d ≠ s.cur →
    (s.put (.port d) v).net = s.net ++ [⟨s.here, coreOf (s.facing d), .port (s.facing d) (backDir d) v⟩]
      ∧ (s.put (.port d) v).fifo (s.facing d) (backDir d)
        = { s.fifo (s.facing d) (backDir d) with held := (s.fifo (s.facing d) (backDir d)).held + 1 }
      ∧ (s.put (.port d) v).me = s.me ∧ (s.put (.port d) v).mem = s.mem)

/-- R122, R123, R125: with its operands there and no signature against it, each two-operand instruction of the integer unit
writes the value that its rule gives, over unbounded integers, and goes on at PC + 4. -/
def Obligations.IntegerUnitResults : Prop :=
  ∀ (i : Instr) (q : AluForm) (s u : State) (x y : Word), aluForm i = some q → s.operands q.a q.b q.d = .ok u x y →
    s.Signed i false → exec i s = .next (s.ended i (u.put q.d (q.f x y)))

/-- R124, R127, R131, R132, R134: the same for the shifts by a count, SPA and SPX, the bit counts, the immediate forms and the
field extractions.

R126, R134: SEL selects by the old d, and INS inserts into it; one that awaits a late value in d waits for it. -/
def Obligations.CountFieldAndImmediateResults : Prop :=
  (∀ (i : Instr) (q : AluForm) (s u : State) (x y : Word), fieldForm i = some q → s.operands q.a q.b q.d = .ok u x y →
    s.Signed i false → exec i s = .next (s.ended i (u.put q.d (q.f x y))))
    ∧ (∀ (i : Instr) (q : AluForm3) (s u : State) (x y : Word), mergeForm i = some q → i.wf = true →
    (∀ n, s.lateReg q.d = some n → exec i s = .next (s.withMe (fun c => { c with run := .waiting (.operand n) })))
      ∧ (s.lateReg q.d = none → s.operands q.a q.b q.d = .ok u x y → s.Signed i false →
        exec i s = .next (s.ended i (u.put q.d (q.f (s.plain q.d) x y)))))

/-- HOME (R128): the home core of an address in the context's placement table, or all ones where it has none.

THE HOME OF AN ADDRESS (R31, R128): a scratchpad address [63] = 1, [62:31] = 0 has its core [30:19] for home where that names a
core of the context's partition; a global address has [62:48] = 0 and lies in a range, whose die mask and granularity
choose the die, g = (x - base) div granule counting through the dies of the mask from the lowest and round again, and whose line
hash the core of it; of several ranges that hold the address the first counts. -/
def Obligations.HomeGivesTheHomeOfAnAddress : Prop :=
  (∀ (d a : Reg) (s u : State) (x y : Word), s.operands a .zr d = .ok u x y → s.Signed (.home d a) false →
    (∀ h, s.homeOf s.cur x = some h → exec (.home d a) s = .next (s.ended (.home d a) (u.put d (BitVec.ofNat 64 h))))
      ∧ (s.homeOf s.cur x = none → exec (.home d a) s = .next (s.ended (.home d a) (u.put d (BitVec.allOnes 64)))))
    ∧ (∀ (d a : Reg) (s : State), a.srcOk = true → d.dstOk = true → s.lateReg a = none → s.Signed (.home d a) false →
    ∃ t, exec (.home d a) s = .next t ∧ t.th.pc = s.th.pc + 4 ∧ t.mem = s.mem
      ∧ ∀ n ∈ regsOf d, landsLast s.seqNow n s.me.landing = true →
        t.me.view n = some (match s.homeOf s.cur (s.plain a) with | some h => BitVec.ofNat 64 h | none => BitVec.allOnes 64))
    ∧ (∀ (s : State) (cid : Nat) (x : Word), isWindow cid x = false →
    (2 ^ 63 ≤ x.toNat → x.toNat < 2 ^ 63 + 2 ^ 31 → isCore (x.toNat / 2 ^ 19 % 4096) = true →
        s.partOf (dieOf (x.toNat / 2 ^ 19 % 4096)) = s.partOf (dieOf (coreOf cid)) →
        s.homeOf cid x = some (x.toNat / 2 ^ 19 % 4096))
      ∧ (2 ^ 63 + 2 ^ 31 ≤ x.toNat → s.homeOf cid x = none)
      ∧ (2 ^ 48 ≤ x.toNat → x.toNat < 2 ^ 63 → s.homeOf cid x = none)
      ∧ (x.toNat < 2 ^ 48 → (∀ r ∈ s.rangesOf cid, ¬ (r.base ≤ x.toNat ∧ x.toNat < r.base + r.size)) → s.homeOf cid x = none)
      ∧ (∀ l1 r l2, x.toNat < 2 ^ 48 → s.rangesOf cid = l1 ++ r :: l2 → (∀ q ∈ l1, ¬ (q.base ≤ x.toNat ∧ x.toNat < q.base + q.size)) →
        r.base ≤ x.toNat → x.toNat < r.base + r.size → r.dies ≠ 0 →
        ∃ h, s.homeOf cid x = some h ∧ isCore h = true ∧ r.dies.getLsbD (dieOf h) = true
          ∧ ((List.range (dieOf h)).filter (fun k => r.dies.getLsbD k)).length
            = (x.toNat - r.base) / r.gran % ((List.range 8).filter (fun k => r.dies.getLsbD k)).length
          ∧ (h % 512 / 32) * 24 + h % 32 =
            (x.toNat / 256 ^^^ x.toNat / 256 / 2 ^ 9 ^^^ x.toNat / 256 / 2 ^ 18 ^^^ x.toNat / 256 / 2 ^ 27) % 384))

/-- R129: with the multiplier free and its operands there each multiply writes its product and takes the multiplier for three
cycles; it waits for the multiplier otherwise (R136).

R130: each divide gives its quotient or remainder, the corners of 0 and of the most negative dividend included. The divider accepts
it behind those already accepted, for the L cycles of R137 after them, and holds five; a sixth waits. A value that is ready within four
cycles is written; else its destination awaits it and OUTLD counts it; toward a port its packet keeps its place in the facing FIFO and
waits in the bay (R138). That a value is written at its packet's own step, before its cycle, is log 18. -/
def Obligations.MultiplyAndDivideResults : Prop :=
  (∀ (i : Instr) (q : AluForm) (s u : State) (x y : Word), mulForm i = some q →
    (s.mulFree = true → s.operands q.a q.b q.d = .ok u x y → s.Signed i false →
        exec i s = .next (s.ended i ((u.onCore u.here (fun c => { c with mul := some (c.cyc + 3) })).put q.d (q.f x y))))
      ∧ (s.mulFree = false → exec i s = .next (s.withMe (fun c => { c with run := .waiting (.siding false) }))))
    ∧ (∀ (i : Instr) (q : AluForm) (s : State), divForm i = some q → 5 ≤ (s.core s.here).divLoad →
      exec i s = .next (s.withMe (fun c => { c with run := .waiting (.siding true) })))
    ∧ (∀ (i : Instr) (q : AluForm) (len : Word → Word → Nat) (s u : State) (x y : Word), divForm i = some q → divLens i = some len →
    s.operands q.a q.b q.d = .ok u x y → s.Signed i false → (s.core s.here).divLoad < 5 → s.me.outld < 16 →
    let c := s.core s.here
    let due := c.divq.foldl (fun n e => max n e.due) c.cyc + len x y
    (q.d.isPort = false →
        (due ≤ c.cyc + 4 → exec i s = .next (s.ended i ((u.put q.d (q.f x y)).onCore s.here (fun k =>
          { k with divq := k.divq ++ [⟨s.cur, s.th.tid, s.seqNow, (regsOf q.d).head?, q.f x y, due, .written⟩] }))))
          ∧ (c.cyc + 4 < due → ∃ t, exec i s = .next t
            ∧ (t.core s.here).divq = c.divq ++ [⟨s.cur, s.th.tid, s.seqNow, (regsOf q.d).head?, q.f x y, due, .late⟩]
            ∧ t.me.lates = s.me.lates ++ [s.seqNow] ∧ t.th.pc = s.th.pc + 4 ∧ t.mem = u.mem
            ∧ ∀ n ∈ regsOf q.d, landsLast s.seqNow n s.me.landing = true → t.me.view n = none))
      ∧ (∀ dir, q.d = .port dir → ∃ t, exec i s = .next t ∧ t.me.run = .waiting .divided
            ∧ (t.core s.here).divq = c.divq ++ [⟨s.cur, s.th.tid, s.seqNow, none, q.f x y, due, .push i dir⟩]
            ∧ (s.facing dir ≠ s.cur →
              (t.fifo (s.facing dir) (backDir dir)).held = (s.fifo (s.facing dir) (backDir dir)).held + 1)
            ∧ t.net = s.net ∧ t.th.pc = s.th.pc ∧ t.mem = u.mem))

/-- FRAME of the integer unit, without lanes and ports: nothing but the destination register, the pc and the checker changes:
no other register, context, core, special register or byte of memory (R120). SEL and INS read the old destination, HOME reads the
placement table; a multiply also takes its core's multiplier, and a divide a place in the divider's queue and, where it leaves late,
in OUTLD (R136 to R138). -/
def Obligations.IntegerUnitFrame : Prop :=
  (∀ (i : Instr) (q : AluForm) (s t : State), aluForm i = some q ∨ fieldForm i = some q →
    q.a.srcOk = true → q.b.srcOk = true → q.d.dstOk = true → s.lateReg q.a = none → s.lateReg q.b = none → s.Signed i false →
    exec i s = .next t → (∀ n ∈ regsOf q.d, landsLast s.seqNow n s.me.landing = true) →
    s.Frame t (regsOf q.d) ∧ t.th.pc = s.th.pc + 4 ∧ (∀ n ∈ regsOf q.d, t.me.view n = some (q.f (s.plain q.a) (s.plain q.b))))
    ∧ (∀ (i : Instr) (q : AluForm3) (s t : State), mergeForm i = some q → i.wf = true →
      q.a.srcOk = true → q.b.srcOk = true → s.lateReg q.a = none → s.lateReg q.b = none → s.lateReg q.d = none → s.Signed i false →
      exec i s = .next t → (∀ n ∈ regsOf q.d, landsLast s.seqNow n s.me.landing = true) →
      s.Frame t (regsOf q.d) ∧ t.th.pc = s.th.pc + 4
        ∧ (∀ n ∈ regsOf q.d, t.me.view n = some (q.f (s.plain q.d) (s.plain q.a) (s.plain q.b))))
    ∧ (∀ (d a : Reg) (s t : State), a.srcOk = true → d.dstOk = true → s.lateReg a = none → s.Signed (.home d a) false →
      exec (.home d a) s = .next t → s.Frame t (regsOf d) ∧ t.th.pc = s.th.pc + 4)
    ∧ (∀ (i : Instr) (q : AluForm) (s t : State), mulForm i = some q → s.mulFree = true →
      q.a.srcOk = true → q.b.srcOk = true → q.d.dstOk = true → s.lateReg q.a = none → s.lateReg q.b = none → s.Signed i false →
      exec i s = .next t → (∀ n ∈ regsOf q.d, landsLast s.seqNow n s.me.landing = true) →
      s.Frame (t.onCore s.here (fun c => { c with mul := (s.core s.here).mul })) (regsOf q.d) ∧ t.th.pc = s.th.pc + 4
        ∧ (∀ n ∈ regsOf q.d, t.me.view n = some (q.f (s.plain q.a) (s.plain q.b))))
    ∧ (∀ (i : Instr) (q : AluForm) (s t : State), divForm i = some q → (s.core s.here).divLoad < 5 → s.me.outld < 16 →
      q.a.srcOk = true → q.b.srcOk = true → q.d.dstOk = true → s.lateReg q.a = none → s.lateReg q.b = none → s.Signed i false →
      exec i s = .next t →
      s.Frame (t.onCore s.here (fun c => { c with divq := (s.core s.here).divq })) (regsOf q.d) ∧ t.th.pc = s.th.pc + 4)

/-- A packet that is done (R82, R83): the thread goes on at the given address; registers, memory and everything outside the
context are as the instruction's own effect left them, but for what the trace encoder of the core notes.

SIGNATURE (R83, R89): where the comparison at the end of a checked block fails, the instruction has no effect and the cause
is raised, with the final CRC and the expected value in DETAIL. -/
def Obligations.PacketsFinishOrFailTheirSignature : Prop :=
  (∀ (s e : State) (i : Instr) (taken : Bool) (npc : Addr48), e.cur = s.cur →
    (s.finished i taken npc e).th.pc = npc ∧ e.Frame (s.finished i taken npc e) []
      ∧ (s.th.sig.en = false → (s.finished i taken npc e).th = { e.th with pc := npc }))
    ∧ (∀ (i : Instr) (q : AluForm) (s u : State) (x y : Word), aluForm i = some q ∨ fieldForm i = some q →
    s.operands q.a q.b q.d = .ok u x y → s.sigFails i false = true → exec i s = .next (s.trap .signature (s.sigDetail i false)))


/-! ### Control flow -/

/-- CONDITIONAL BRANCHES (R140): each compares the values of its registers and goes to PC + 4 × the displacement where its
relation holds, to PC + 4 where it does not; it writes no register and no memory.

JUMPS (R141, R142): J and JAL go to PC + 4 × the displacement, JR and JALR to the value of a register whose low two bits and
bits above 47 are zero; JAL writes PC + 4 to g14 and JALR to d, after it has read a. That targets and links are taken in 48 bits is
log 17.

A jump to a bad address (R142): MISALIGNED before BAD_ADDRESS, with the address in DETAIL and no link written. -/
def Obligations.BranchesAndJumps : Prop :=
  (∀ (a b : Reg) (n : BitVec 16) (s u : State) (x y : Word), s.operands a b .zr = .ok u x y →
    ∀ i r, (i, r) ∈ [(Instr.beq a b n, decide (x = y)), (.bne a b n, decide (x ≠ y)), (.blt a b n, decide (x.toInt < y.toInt)),
        (.bge a b n, decide (y.toInt ≤ x.toInt)), (.bltn a b n, decide (x.toNat < y.toNat)),
        (.bgen a b n, decide (y.toNat ≤ x.toNat))] →
      s.Signed i r →
      exec i s = .next (s.finished i r (if r then BitVec.ofInt 48 (s.th.pc.toNat + 4 * n.toInt) else s.th.pc + 4) u))
    ∧ (∀ (n : BitVec 26) (d a : Reg) (s u : State) (x y : Word),
    (s.Signed (.j n) true → exec (.j n) s = .next (s.finished (.j n) true (BitVec.ofInt 48 (s.th.pc.toNat + 4 * n.toInt)) s))
      ∧ (s.Signed (.jal n) true → exec (.jal n) s = .next (s.finished (.jal n) true (BitVec.ofInt 48 (s.th.pc.toNat + 4 * n.toInt))
          (s.put (.g 14) (BitVec.ofNat 64 ((s.th.pc.toNat + 4) % 2 ^ 48)))))
      ∧ (s.operands a .zr .zr = .ok u x y → x.toNat % 4 = 0 → x.toNat < 2 ^ 48 →
        (s.Signed (.jr a) true → exec (.jr a) s = .next (s.finished (.jr a) true (BitVec.ofNat 48 x.toNat) u))
          ∧ (s.Signed (.jalr d a) true → exec (.jalr d a) s = .next (s.finished (.jalr d a) true (BitVec.ofNat 48 x.toNat)
              (u.put d (BitVec.ofNat 64 ((s.th.pc.toNat + 4) % 2 ^ 48)))))))
    ∧ (∀ (d a : Reg) (s u : State) (x y : Word), s.operands a .zr .zr = .ok u x y → ∀ i ∈ [Instr.jr a, .jalr d a],
    (x.toNat % 4 ≠ 0 → exec i s = .next (s.trap .misaligned x))
      ∧ (x.toNat % 4 = 0 → 2 ^ 48 ≤ x.toNat → exec i s = .next (s.trap .badAddress x)))

/-- ALIGN, BSIG and BSIGT (R86, R87, R143, R144): ALIGN of 0, or after its release, is done; where every other runnable context of
the launch in the cluster holds an ALIGN at the same address, all of them go on; else it is held. BSIG opens a checked block while
SIGCTL.EN is 1, and BSIGT sets the taken end's value before a packet of the block is counted. -/
def Obligations.AlignAndSignatureMarks : Prop :=
  ∀ (n e : BitVec 16) (s : State),
    (n = 0 ∨ s.me.answered = true → s.Signed (.align n) false → exec (.align n) s = .next (s.ended (.align n) s))
      ∧ (n ≠ 0 → s.me.answered = false → s.alignMet s.cur = true → s.Signed (.align n) false →
        ∃ t, exec (.align n) s = .next t ∧ t.th.pc = s.th.pc + 4
          ∧ ∀ k ∈ s.siblings s.cur, k ≠ s.cur → (s.ctx k).holdsAlign s.th.pc = true → (t.ctx k).run = .runnable ∧ (t.ctx k).answered = true)
      ∧ (n ≠ 0 → s.me.answered = false → s.alignMet s.cur = false →
        ∃ t, exec (.align n) s = .next t ∧ t.me.run = .waiting (.align n.toNat) ∧ t.th = s.th ∧ t.mem = s.mem)
      ∧ (∃ t, exec (.bsig e) s = .next t ∧ s.Frame t [] ∧ t.th.pc = s.th.pc + 4
        ∧ t.th.sig = if s.th.sig.en then ⟨true, true, 0xFFFF, 0, e, e, []⟩ else s.th.sig)
      ∧ (∃ t, exec (.bsigt e) s = .next t ∧ s.Frame t [] ∧ t.th.pc = s.th.pc + 4
        ∧ t.th.sig = if s.th.sig.en && s.th.sig.isOpen && s.th.sig.n == 0 then { s.th.sig with e1 := e } else s.th.sig)

/-- CLAIMS (R52): from a counter at or past N there is nothing left; else the chunk starts at the counter c and ends, where the counter
then stands, at e = min(c + k, N) with k = max(MINC, ceil((N - c) / P)), a MINC or P of 0 read as 1.

NEST (R146): with its context's earlier operations to the descriptor's home performed, a readable descriptor at an aligned address and a
good counter address, and the claim that this NEST has made of that counter back (R79, R83), it enters the chunk's first iteration, or
goes past the body when nothing was left. Its claim at a full counter word of the own scratchpad is made and used at once.

NEXT (R52, R147): without an active nest it goes on; inside a chunk it takes the next iteration and branches back; at the chunk's end it
takes the chunk that its claim gave, or ends the nest. The iteration's ix values are its digits in the extents. -/
def Obligations.NestsTakeTheirIterations : Prop :=
  (∀ c n p m : Nat, (n ≤ c → claimOf c n p m = (none, c))
    ∧ (c < n →
      let parts := max 1 p
      let k := max (max 1 m) ((n - c + parts - 1) / parts)
      claimOf c n p m = (some (c, min (c + k) n), min (c + k) n)))
    ∧ (∀ (a : Reg) (d : BitVec 16) (s u : State) (k k' v : Nat) (f g : Nest),
    s.ready2 a .zr = none → s.addrFault (s.plain a) 64 64 = none → s.orderHeld s.cur (s.homeNow (s.plain a)) = false →
    let r := s.flushWcb s.cur (s.homeNow (s.plain a))
    r.orderHeld s.cur (s.homeNow (s.plain a)) = false → r.onWay s.cur (s.homeNow (s.plain a)) = false →
    r.fetcherKey (s.plain a) false = .ok k → r.load k 64 = some (v, u) → f = nestOf u.mem k u.th.nest →
    g = { f with claims := u.useClaim f.ctr } →
    f.ctr.toNat % 8 = 0 → u.badAddr u.cur f.ctr = false → u.fetcherKey f.ctr true = .ok k' →
    (∀ c e, u.claimOut f.ctr = some (some (c, e)) → u.Signed (.nest a d) false →
        exec (.nest a d) s = .next (u.finished (.nest a d) false (u.th.pc + 4) (u.enterChunk g c e)))
      ∧ (u.claimOut f.ctr = some none → u.Signed (.nest a d) true →
        exec (.nest a d) s = .next (u.finished (.nest a d) true (BitVec.ofInt 48 (u.th.pc.toNat + 4 * d.toInt))
          (u.setNest (fun _ => { g with active := false }))))
      ∧ (∀ w x c e z b, u.claimOut f.ctr = none → u.claimOpen f.ctr = false → u.direct f.ctr = true →
        u.home u.here (u.req f.ctr .claim none) = (w, .value x none) → claimOf x.toNat f.n f.p f.minc = (some (c, e), z) →
        (w.home u.here { u.req f.ctr .claim none with op := .stf (BitVec.ofNat 64 z) }).1 = b → b.th.sig.en = false → b.cur = s.cur →
        b.th.nest.claims = u.th.nest.claims → b.th.pc = u.th.pc →
        ∃ t, exec (.nest a d) s = .next t ∧ t.th.nest.active = true ∧ t.th.nest.i = c ∧ t.th.nest.stop = e
          ∧ (∀ n : Fin 4, t.th.ix.get n.val 0 = (unpackIx f c).get n.val 0) ∧ t.th.pc = b.th.pc + 4))
    ∧ (∀ (d : BitVec 16) (s : State),
    let i := Instr.next d
    let f := s.th.nest
    let g := { f with claims := s.useClaim f.ctr }
    let back : Addr48 := BitVec.ofInt 48 (s.th.pc.toNat + 4 * d.toInt)
    (f.active = false → s.Signed i false → exec i s = .next (s.ended i s))
      ∧ (f.active = true → f.i + 1 < f.stop → s.Signed i true →
        exec i s = .next (s.finished i true back ((s.setNest (fun f => { f with i := f.i + 1 })).setIx f (f.i + 1))))
      ∧ (∀ c e, f.active = true → f.stop ≤ f.i + 1 → s.me.barred = none → s.claimOut f.ctr = some (some (c, e)) → s.Signed i true →
        exec i s = .next (s.finished i true back (s.enterChunk g c e)))
      ∧ (f.active = true → f.stop ≤ f.i + 1 → s.me.barred = none → s.claimOut f.ctr = some none → s.Signed i false →
        exec i s = .next (s.ended i (s.setNest (fun _ => { g with active := false }))))
      ∧ (∀ n, unpackIx f n = [(0, BitVec.ofNat 64 (n % max 1 f.e0)), (1, BitVec.ofNat 64 (n / max 1 f.e0 % max 1 f.e1)),
          (2, BitVec.ofNat 64 (n / max 1 f.e0 / max 1 f.e1 % max 1 f.e2)),
          (3, BitVec.ofNat 64 (n / max 1 f.e0 / max 1 f.e1 / max 1 f.e2 % max 1 f.e3))])
      ∧ (∀ n (k : Fin 4), (s.setIx f n).th.ix.get k.val 0 = (unpackIx f n).get k.val 0))


/-! ### Memory -/

/-- ADDRESS CHECKS (R31, R59, R180, R184, R244): a misaligned address raises MISALIGNED, else one without a home, in the inbox ring
or kept for another launch raises BAD_ADDRESS, with the address in DETAIL and no access made. -/
def Obligations.AccessChecksItsAddress : Prop :=
  ∀ (i : Instr) (f : MemForm) (s : State), memForm s i = some f → f.n ≤ 8 → s.ready2 f.a f.b = none → isWindow s.cur f.x = false →
    (f.x.toNat % f.n ≠ 0 → exec i s = .next (s.trap .misaligned f.x))
      ∧ (f.x.toNat % f.n = 0 → (s.homeOf s.cur f.x = none ∨ s.hitsRing s.cur f.x f.n = true
          ∨ (isPad f.x = true ∧ ∃ h, s.homeOf s.cur f.x = some h ∧ s.retainedFor s.cur h = true)) →
        exec i s = .next (s.trap .badAddress f.x))

/-- AT THE OWN SCRATCHPAD (R75, R177, R181, R184, R209, R210): the core performs the operation at once as the home does
(the statements on full-empty words, watches and barriers); the value goes to the destination, an acknowledged operation is done. For
loads and ST the spec says so (R181); that the other operations are performed in their packet's own step, unless the step is one that
sends them, is log 54. -/
def Obligations.OwnScratchpadAnswersAtOnce : Prop :=
  ∀ (i : Instr) (f : MemForm) (s u : State), memForm s i = some f → s.Clear f →
    (s.direct f.x = true ∨ (f.op.inSiding = true ∧ s.ownPad f.x = true ∧ s.ownFree = true)) → s.Signed i false →
    (∀ v, f.posted = false → s.home s.here (s.reqOf f) = (u, .value v none) → exec i s = .next (s.ended i (u.setReg f.dst v)))
      ∧ (f.posted = true → s.home s.here (s.reqOf f) = (u, .acked none) → exec i s = .next (s.ended i u))

/-- ANYWHERE ELSE (R75, R177, R237): a request for a value goes to the home and its packet waits at stage 6, where it completes
or leaves late; a posted one goes to the home and is done. A load of a line that the core or its die holds a copy of reads the
copy once no operation of the context to that home is still on its way (R235, R238), one of bytes in the write-combining buffer
reads them, and neither is sent; a store to global memory enters that buffer. A load or ST of the own scratchpad is never sent: it
stays at stage 6 until the context's earlier operations to that home, its buffered stores sent, are performed (R181, R235). -/
def Obligations.RequestsGoToTheHome : Prop :=
  ∀ (i : Instr) (f : MemForm) (s : State), memForm s i = some f → s.Clear f → s.direct f.x = false → s.Signed i false →
    (f.posted = false → (f.op.inSiding && s.ownPad f.x) = false → (isPad f.x = true ∨ (s.buffered s.cur (vkey (s.asnOf s.cur) f.x) f.n = none ∧ s.copyOf f.x f.n = none)) →
        exec i s = .next ((s.request (s.homeNow f.x) (s.reqOf f)).withMe
          (fun c => { c with bay := some (i, s.reqOf f), run := .waiting .reply })))
      ∧ (f.op.inSiding = true → s.ownPad f.x = true → s.ownFree = false →
        exec i s = .next ((s.flushWcb s.cur s.here).withMe (fun c => { c with run := .waiting (.order s.here) })))
      ∧ (f.posted = true → (f.op.inSiding && s.ownPad f.x) = false → (isPad f.x = true ∨ ∀ bs n, f.op ≠ .store bs n) →
        exec i s = .next (s.ended i ((s.post (s.reqOf f)).request (s.homeNow f.x) (s.reqOf f))))
      ∧ (∀ bs, isPad f.x = false → f.op = .store (bs.mapIdx (fun k b => (k, b))) 1 →
        exec i s = .next (s.ended i ((s.post (s.reqOf f)).combine (s.homeNow f.x) (s.reqOf f) bs)))
      ∧ (∀ n sx v, isPad f.x = false → f.op = .load n sx → s.buffered s.cur (vkey (s.asnOf s.cur) f.x) n = some v →
        exec i s = .next (s.ended i (s.setReg f.dst (loadValue v n sx))))
      ∧ (∀ n sx bs k, isPad f.x = false → f.op = .load n sx → s.buffered s.cur (vkey (s.asnOf s.cur) f.x) n = none →
        s.copyOf f.x n = some bs → s.pendingTo (s.homeNow f.x) = false → s.translate (vkey (s.asnOf s.cur) f.x) false = .ok k →
        ∃ u : State, exec i s = .next (s.ended i (u.setReg f.dst (loadValue (leNat bs) n sx))) ∧ u.mem = s.mem ∧ u.net = s.net ∧ u.me = s.me)

/-- LOADS READ AND STORES WRITE (R4, R181): at the own powered scratchpad with sound banks, LD and LDX return the little-endian
number of the bytes at the computed address, extended; ST writes the low bytes of its register there, and every byte of memory
outside them, every general register and the other contexts' threads are as before. -/
def Obligations.ScratchpadLoadsAndStores : Prop :=
  ∀ (t a : Reg) (z : Size) (o : Bool) (c : Scope) (d : BitVec 10) (s : State),
    let x := BitVec.ofInt 64 ((s.plain a).toNat + d.toInt * sizeBytes z)
    s.direct x = true → (s.core s.here).powered = true → (s.core s.here).groups = [] → (s.core s.here).badWords = [] →
    (s.core s.here).softWords = [] → s.MemOk →
    (∀ f, memForm s (.ld t a z o c d) = some f → s.Clear f → s.Signed (.ld t a z o c d) false →
        exec (.ld t a z o c d) s = .next (s.ended (.ld t a z o c d)
          ((s.setCore s.here (s.core s.here)).setReg (gReg t) (BitVec.ofNat 64 (s.mem.nat x.toNat (sizeBytes z))))))
      ∧ (∀ f, memForm s (.ldx t a z o c d) = some f → s.Clear f → s.Signed (.ldx t a z o c d) false →
        exec (.ldx t a z o c d) s = .next (s.ended (.ldx t a z o c d)
          ((s.setCore s.here (s.core s.here)).setReg (gReg t)
            (BitVec.ofInt 64 (signedOf (s.mem.nat x.toNat (sizeBytes z)) (8 * sizeBytes z))))))
      ∧ (∀ f, memForm s (.st t a z o c d) = some f → s.Clear f → s.Signed (.st t a z o c d) false →
        ∃ u, exec (.st t a z o c d) s = .next u ∧ u.th.pc = s.th.pc + 4
          ∧ u.mem.nat x.toNat (sizeBytes z) = (s.plain t).toNat % 256 ^ sizeBytes z
          ∧ (∀ k, k < x.toNat ∨ x.toNat + sizeBytes z ≤ k → u.mem.read k = s.mem.read k)
          ∧ (∀ m, u.me.view m = s.me.view m) ∧ (∀ cid, cid ≠ s.cur → (u.ctx cid).th = (s.ctx cid).th))

/-- ATOMICS (R188, R189): at a full, sound word of the own scratchpad that nothing waits for, with no release of the core due, the old
value comes back to the register, the word holds the new one and is full again, and every other byte of memory is as before; with
.acq too, once nothing of the thread is outstanding and, at a wide scope, no write-back of the core. Elsewhere the reserve goes to
the home, and the core remembers the ATOM until its release is sent.

R188: what an atomic computes: the 8-byte form on the whole word; the 4-byte form on the half that its address names, whose
old value it returns sign-extended, the other half unchanged. -/
def Obligations.AtomicsReserveAndRelease : Prop :=
  (∀ (i : Instr) (f : AtomForm) (s : State), atomForm i = some f → s.ready2 f.a f.t = none → s.lateReg f.u = none →
    s.addrFault (s.plain f.a) (if f.wide then 8 else 4) (if f.wide then 8 else 4) = none →
    s.orderHeld s.cur (s.homeNow (s.plain f.a)) = false →
    (s.travels s.cur (s.plain f.a) = true → s.homeNow (s.plain f.a) = s.here) →
    s.th.resv.length < Config.resvMax → s.me.unack < 32 → s.me.outld < 16 →
    (f.o = true → s.flushAll s.cur = s) → s.Signed i false →
    let w : Word := BitVec.ofNat 64 ((s.plain f.a).toNat / 8 * 8)
    let k := w.toNat
    let r : Req := { s.req w (.reserve f.fn f.wide (bit (s.plain f.a) 2) (s.plain f.t) (s.plain f.u)) (gReg f.t) with addr := s.plain f.a }
    let p := atomResult f.fn f.wide (bit (s.plain f.a) 2) (s.mem.word k) (s.plain f.t) (s.plain f.u)
    (s.direct (s.plain f.a) = true → s.PadWord s.here k → s.full s.here k = true → (s.core s.here).atoms = [] →
        (f.o = true → s.me.posted = [] ∧ s.me.lates = [] ∧ s.vstores s.cur = [] ∧ (Scope.drains f.c = true → s.wbDrained s.here = true)) →
        ∃ t, exec i s = .next t ∧ t.th.pc = s.th.pc + 4 ∧ t.mem.word k = p.1 ∧ t.full s.here k = true
          ∧ s.mem.SameOutside t.mem k 8
          ∧ (∀ n, gReg f.t = some n → landsLast s.seqNow n s.me.landing = true → t.me.view n = some p.2)
          ∧ (∀ n, gReg f.t ≠ some n → t.me.view n = s.me.view n))
      ∧ (s.direct (s.plain f.a) = false → ∃ op : AtomOp, op.cid = s.cur ∧ op.seq = s.seqNow ∧ op.home = s.homeNow (s.plain f.a)
          ∧ op.release = none
          ∧ exec i s = .next (((s.onCore s.here (fun c => { c with atoms := c.atoms ++ [op] })).request (s.homeNow (s.plain f.a)) r).withMe
            (fun c => { c with bay := some (i, r), run := .waiting .reply }))))
    ∧ (∀ (fn : AtomFn) (high : Bool) (v r c : Word),
    (atomResult fn true high v r c).1.toNat = atomNew 64 fn v.toNat r.toNat c.toNat
      ∧ (atomResult fn true high v r c).2 = v
      ∧ (atomResult fn false false v r c).1.toNat
        = v.toNat / 2 ^ 32 * 2 ^ 32 + atomNew 32 fn (v.toNat % 2 ^ 32) r.toNat c.toNat
      ∧ (atomResult fn false true v r c).1.toNat
        = atomNew 32 fn (v.toNat / 2 ^ 32) r.toNat c.toNat * 2 ^ 32 + v.toNat % 2 ^ 32
      ∧ (atomResult fn false false v r c).2 = sext32 v.toNat ∧ (atomResult fn false true v r c).2 = sext32 (v.toNat / 2 ^ 32))


/-! ### Homes -/

/-- FULL-EMPTY WORDS (R184, R186, R187, R198, R242): at a powered, sound scratchpad word that nothing waits for, LDF returns the word
and leaves it empty and on the thread's reservation list; LDFF returns it; STF writes an empty one and leaves it full; SETE
empties and SETF fills it; LDF and LDFF of an empty word and STF of a full one wait, or are refused by a full table.

A STORE SERVES THE WORD'S WAITER (R184): an STF of an empty word that one LDF of another core waits for gives it the value by
a reply, and the word stays empty, reserved for the waiter's thread. -/
def Obligations.FullEmptyWords : Prop :=
  (∀ (s : State) (h k : Nat) (r : Req) (v : Word), s.PadWord h k →
    (r.key = k → r.op = .ldf → s.full h k = true → ∃ u, s.home h r = (u, .value (s.mem.word k) none) ∧ u.full h k = false
        ∧ u.mem = s.mem ∧ ((s.ctx r.cid).holdsThread = true → (s.ctx r.cid).th.tid = r.tid → r.tid ≠ 0 →
          (u.ctx r.cid).th.resv = (s.ctx r.cid).th.resv ++ [k]))
      ∧ (r.key = k → r.op = .ldff → s.full h k = true → ∃ u, s.home h r = (u, .value (s.mem.word k) none) ∧ u.full h k = true ∧ u.mem = s.mem)
      ∧ (r.key = k → (r.op = .ldf ∨ r.op = .ldff) → s.full h k = false →
        s.home h r = if (s.core h).waits.length < 64 then (s.onCore h (fun c => { c with waits := c.waits ++ [⟨r, k⟩] }), .queued) else (s, .refused))
      ∧ (r.key = k → r.op = .stf v → s.full h k = false → ∃ u, s.home h r = (u, .acked none) ∧ u.full h k = true ∧ u.mem.word k = v
        ∧ s.mem.SameOutside u.mem k 8)
      ∧ (r.key = k → r.op = .stf v → s.full h k = true →
        s.home h r = if (s.core h).waits.length < 64 then (s.onCore h (fun c => { c with waits := c.waits ++ [⟨r, k⟩] }), .queued) else (s, .refused))
      ∧ (r.key = k → r.op = .sete → ∃ u, s.home h r = (u, .acked none) ∧ u.full h k = false ∧ u.mem = s.mem)
      ∧ (r.key = k → r.op = .setf → ∃ u, s.home h r = (u, .acked none) ∧ u.full h k = true ∧ u.mem = s.mem))
    ∧ (∀ (s : State) (h k : Nat) (r q : Req) (v : Word), padKey k = true → padCore k = h → k % 8 = 0 → (s.core h).powered = true →
    s.MemOk → (s.core h).groups = [] → (s.core h).badWords = [] → (s.core h).softWords = [] → (s.core h).waits = [⟨q, k⟩] →
    q.op = .ldf → (s.ctx q.cid).holdsThread = true → (s.ctx q.cid).th.tid = q.tid → q.tid ≠ 0 → r.key = k → r.op = .stf v → s.full h k = false → s.cores.all (fun e => e.2.watches.isEmpty && e.2.resends.isEmpty) = true →
    ∃ u, s.home h r = (u, .acked none) ∧ u.mem.word k = v ∧ u.full h k = false ∧ (u.core h).waits = []
      ∧ (⟨h, coreOf q.cid, .reply q v none⟩ : Msg) ∈ u.net ∧ k ∈ (u.ctx q.cid).th.resv)

/-- WATCHES (R191 to R193): a home takes a watch of a thread that is still in its context into its table of 32 or says that it is full,
records none for a thread that has left, forgets one, and reads a word for WAITA; a store on a watched word sets the ready bit of a
watcher on the same core and sends a wake to any other. -/
def Obligations.HomesKeepWatches : Prop :=
  ∀ (s : State) (h k : Nat) (r : Req), s.PadWord h k → r.key = k →
    (r.op = .watch → s.senderHere r = true → (k, r.cid) ∉ (s.core h).watches → (s.core h).watches.length < 32 →
        s.home h r = (s.setCore h { s.core h with watches := (s.core h).watches ++ [(k, r.cid)] }, .answered (some 1)))
      ∧ (r.op = .watch → s.senderHere r = true → (k, r.cid) ∉ (s.core h).watches → 32 ≤ (s.core h).watches.length →
        s.home h r = (s, .answered none))
      ∧ (r.op = .watch → s.senderHere r = false → s.home h r = (s, .answered (some 1)))
      ∧ (r.op = .unwatch → ∃ u, s.home h r = (u, .acked none) ∧ (k, r.cid) ∉ (u.core h).watches
        ∧ ∀ e, e ≠ (k, r.cid) → (e ∈ (u.core h).watches ↔ e ∈ (s.core h).watches))
      ∧ (r.op = .waita → ∃ u, s.home h r = (u, .answered (some (s.mem.word k))) ∧ u.mem = s.mem)
      ∧ (∀ u bs c, s.store k bs = some u → bs ≠ [] → (h, c) ∈ s.cores → (k, r.cid) ∈ c.watches →
        (coreOf r.cid = h → (u.ctx r.cid).ready = true)
          ∧ (coreOf r.cid ≠ h → ⟨h, coreOf r.cid, .wake r.cid⟩ ∈ u.net))

/-- BARRIERS (R207 to R211): BINIT writes phase 0, its expected count and no arrivals; an arrival short of the count adds to it
and returns the phase; one that reaches it returns the phase with LAST, starts the next phase with no arrivals and lets every
waiter go; a BWT of another phase is answered at once and one of the present phase waits. -/
def Obligations.BarrierObjects : Prop :=
  ∀ (s : State) (h k : Nat) (r : Req), s.PadWord h k → s.PadWord h (k + 8) → k % 16 = 0 → r.key = k →
    let w := (s.mem.word k).toNat
    let phase := w / 2 ^ 40 % 16
    let expd := w / 2 ^ 20 % 2 ^ 20
    let arr := w % 2 ^ 20
    (∀ b : Word, r.op = .binit b → ∃ u, s.home h r = (u, .acked none)
        ∧ (u.mem.word k).toNat = b.toNat / 2 ^ 20 % 2 * 2 ^ 45 + b.toNat % 2 ^ 20 * 2 ^ 20 ∧ u.mem.word (k + 8) = 0)
      ∧ (∀ n die, r.op = .arv n die false → n < 16 → (die = dieOf h ∨ w / 2 ^ 45 % 2 = 1) → arr + n < expd →
        ∃ u, s.home h r = (u, .value (BitVec.ofNat 64 phase) none) ∧ (u.mem.word k).toNat % 2 ^ 20 = arr + n
          ∧ (u.mem.word k).toNat / 2 ^ 20 % 2 ^ 24 = w / 2 ^ 20 % 2 ^ 24)
      ∧ (∀ n die, r.op = .arv n die false → n < 16 → (die = dieOf h ∨ w / 2 ^ 45 % 2 = 1) → expd ≤ arr + n →
        ∃ u, s.home h r = (u, .value (BitVec.ofNat 64 (phase + 16)) (if expd < arr + n then some .barrierOverrun else none))
          ∧ (u.mem.word k).toNat % 2 ^ 20 = 0 ∧ (u.mem.word k).toNat / 2 ^ 40 % 16 = (phase + 1) % 16
          ∧ (u.mem.word k).toNat / 2 ^ 20 % 2 ^ 20 = expd)
      ∧ (∀ n die, r.op = .arv n die false → die ≠ dieOf h → w / 2 ^ 45 % 2 = 0 →
        ∃ u, s.home h r = (u, .value (BitVec.ofNat 64 (phase + 32)) none) ∧ u.mem = s.mem)
      ∧ (∀ p : BitVec 4, r.op = .bwt p → p.toNat ≠ phase → ∃ u, s.home h r = (u, .answered none) ∧ u.mem = s.mem)
      ∧ (∀ p : BitVec 4, r.op = .bwt p → p.toNat = phase → (s.core h).waits.length < 64 →
        ∃ u, s.home h r = (u, .queued) ∧ (u.core h).waits = (s.core h).waits ++ [⟨r, k⟩] ∧ u.mem = s.mem)

/-- A HOME'S ANSWER GOES BACK (R75, R177, R186, R233): the steps of the homes take the oldest request of a route, perform it as
`State.home` does and send its answer to the core that asked: a value, an acknowledgement, an answer, a fault or a refusal, behind
which later requests of the thread go back too; a queued or held request stays at the home, as does one behind a held one of its
thread (R235) and a load behind a write of its line that waits for the copies to go (R258), and one for host memory goes on to the
hub (R249). A severed route gives ACCESS_FAULT (R373).

A POWERED-DOWN OR UNMAPPED HOME (R30, R58, R218): a request to the scratchpad of a core whose banks are down gives
ACCESS_FAULT; one to a global address that no page maps gives PAGE_FAULT, and one that its page does not permit
ACCESS_FAULT, but for prefetches and flushes, and but for a range that grows (R175, R232). -/
def Obligations.HomeStepsAnswerRequests : Prop :=
  (∀ (n src h : Nat) (r : Req) (s u : State) (a : Resp), s.msgAt n = some ⟨src, h, .req r⟩ → isHub h = false → r.cid < agentCid →
    ∀ (i : Instr) (ok : Bool), (i, ok) ∈ [
        (Instr.homeLoad n, match r.op with | .load .. | .prefetch => true | _ => false),
        (.homeWriteBack n, match r.op with | .store .. => true | _ => false),
        (.homeLdf n, match r.op with | .ldf | .claim => true | _ => false), (.homeLdff n, r.op == .ldff),
        (.homeStf n, match r.op with | .stf _ => true | _ => false),
        (.homeSete n, r.op == .sete), (.homeSetf n, r.op == .setf),
        (.homeAtomReserve n, match r.op with | .reserve .. => true | _ => false),
        (.homeAtomRelease n, match r.op with | .release _ => true | _ => false),
        (.homeWatch n, r.op == .watch), (.homeUnwatch n, r.op == .unwatch), (.homeWaitaRead n, r.op == .waita),
        (.homeFlush n, r.op == .flush), (.homeBinit n, match r.op with | .binit _ => true | _ => false),
        (.homeArv n, match r.op with | .arv .. => true | _ => false), (.homeBwt n, match r.op with | .bwt _ => true | _ => false)] →
      ok = true → (s.severed src h = true → ∃ t, exec i s = .next t ∧ t.mem = s.mem
          ∧ t.net = s.net.eraseIdx n ++ [⟨h, coreOf r.cid, .fault r 1 false⟩])
        ∧ (s.severed src h = false → ((s.dropMsg n).keptBefore h r = true ∨ (s.dropMsg n).writeAhead h r = true) →
          exec i s = .next ((s.dropMsg n).keep h r))
        ∧ (s.severed src h = false → (s.dropMsg n).keptBefore h r = false → (s.dropMsg n).writeAhead h r = false → (s.dropMsg n).home h r = (u, a) →
          ∃ t, exec i s = .next t ∧ t.mem = u.mem
            ∧ (a = .held → t = u.keep h r)
            ∧ (a = .queued → t = u)
            ∧ (∀ hub, a = .passed hub → (t.core h).hosted = (u.core h).hosted ++ [r] ∧ t.net = u.net ++ [⟨h, hub, .req r⟩])
            ∧ (∀ v c, a = .value v c → t.net = u.net ++ [⟨h, coreOf r.cid, .reply r v c⟩])
            ∧ (∀ c, a = .acked c → t.net = u.net ++ [⟨h, coreOf r.cid, .ack r r.op.count c⟩])
            ∧ (∀ v, a = .answered v → t.net = u.net ++ [⟨h, coreOf r.cid, .answer r v⟩])
            ∧ (∀ fc b, a = .faulted fc b → t.net = u.net ++ [⟨h, coreOf r.cid, .fault r fc b⟩])
            ∧ (a = .refused → t = (u.takeBack h r).send h (coreOf r.cid) (.refuse r))))
    ∧ (∀ (s : State) (h : Nat) (r : Req),
    (padKey r.key = true → (s.core h).powered = false → s.home h r = (s, .faulted 1 false))
      ∧ (padKey r.key = false → r.op ≠ .prefetch → r.op ≠ .flush → s.pageOf r.key = none → s.grows r = false →
        s.home h r = (s, .faulted 0 false))
      ∧ (∀ p, padKey r.key = false → r.op ≠ .prefetch → r.op ≠ .flush → s.pageOf r.key = some p →
        (if needsWrite r.op then p.w else p.r) = false → s.home h r = (s, .faulted 1 false)))

/-- HOMES PERFORM THEIR REQUESTS (R184, R188, R191, R193, R196, R198, R209 to R211): each step of a home, for a request of its kind that
has come over a whole route to a powered, sound scratchpad word that nothing waits for, answers a next state: what the operation does
to the word's bytes and its full-empty state is done, and the answer is on its way to the core that asked. -/
def Obligations.HomesPerformTheirRequests : Prop :=
  ∀ (s : State) (n src h k : Nat) (r : Req), s.msgAt n = some ⟨src, h, .req r⟩ → isHub h = false → r.cid < agentCid →
    s.severed src h = false → (s.core h).helds = [] → (s.core h).hosted = [] → r.key = k → s.PadWord h k →
    let w := s.mem.word k
    let tells (t : State) (b : Body) : Prop := (⟨h, coreOf r.cid, b⟩ : Msg) ∈ t.net
    (∀ m sx, r.op = .load m sx → m ≤ 8 →
        ∃ t, exec (.homeLoad n) s = .next t ∧ t.mem = s.mem ∧ tells t (.reply r (loadValue (s.mem.nat k m) m sx) none))
      ∧ (∀ bs : List Byte, r.op = .store (bs.mapIdx (fun j b => (j, b))) 1 → bs.length ≤ 8 →
        ∃ t, exec (.homeWriteBack n) s = .next t ∧ t.mem.bytes k bs.length = bs ∧ s.mem.SameOutside t.mem k bs.length ∧ tells t (.ack r 1 none))
      ∧ (r.op = .ldf → s.full h k = true →
        ∃ t, exec (.homeLdf n) s = .next t ∧ t.full h k = false ∧ t.mem = s.mem ∧ tells t (.reply r w none))
      ∧ (r.op = .ldff → s.full h k = true →
        ∃ t, exec (.homeLdff n) s = .next t ∧ t.full h k = true ∧ t.mem = s.mem ∧ tells t (.reply r w none))
      ∧ (∀ v, r.op = .stf v → s.full h k = false →
        ∃ t, exec (.homeStf n) s = .next t ∧ t.full h k = true ∧ t.mem.word k = v ∧ s.mem.SameOutside t.mem k 8 ∧ tells t (.ack r 1 none))
      ∧ (r.op = .sete → ∃ t, exec (.homeSete n) s = .next t ∧ t.full h k = false ∧ t.mem = s.mem ∧ tells t (.ack r 1 none))
      ∧ (r.op = .setf → ∃ t, exec (.homeSetf n) s = .next t ∧ t.full h k = true ∧ t.mem = s.mem ∧ tells t (.ack r 1 none))
      ∧ (∀ f wide high x y, r.op = .reserve f wide high x y → s.full h k = true →
        ∃ t, exec (.homeAtomReserve n) s = .next t ∧ (t.core h).reserved.find k = some ⟨true, some r.tid⟩ ∧ t.mem = s.mem
          ∧ tells t (.reply r w none))
      ∧ (∀ v, r.op = .release v → s.full h k = false →
        ∃ t, exec (.homeAtomRelease n) s = .next t ∧ t.full h k = true ∧ t.mem.word k = v ∧ s.mem.SameOutside t.mem k 8
          ∧ tells t (.ack r 1 none))
      ∧ (r.op = .watch → s.senderHere r = true → (s.core h).watches.length < 32 →
        ∃ t, exec (.homeWatch n) s = .next t ∧ (k, r.cid) ∈ (t.core h).watches ∧ t.mem = s.mem ∧ tells t (.answer r (some 1)))
      ∧ (r.op = .unwatch →
        ∃ t, exec (.homeUnwatch n) s = .next t ∧ (k, r.cid) ∉ (t.core h).watches ∧ t.mem = s.mem ∧ tells t (.ack r 1 none))
      ∧ (r.op = .waita → ∃ t, exec (.homeWaitaRead n) s = .next t ∧ t.mem = s.mem ∧ tells t (.answer r (some w)))
      ∧ (r.op = .flush → ∃ t, exec (.homeFlush n) s = .next t ∧ t.mem = s.mem ∧ tells t (.ack r 1 none))
      ∧ (k % 16 = 0 → s.PadWord h (k + 8) →
        (∀ b : Word, r.op = .binit b → ∃ t, exec (.homeBinit n) s = .next t
            ∧ (t.mem.word k).toNat = b.toNat / 2 ^ 20 % 2 * 2 ^ 45 + b.toNat % 2 ^ 20 * 2 ^ 20 ∧ t.mem.word (k + 8) = 0 ∧ tells t (.ack r 1 none))
          ∧ (∀ m, r.op = .arv m (dieOf h) false → w.toNat % 2 ^ 20 + m < w.toNat / 2 ^ 20 % 2 ^ 20 →
            ∃ t, exec (.homeArv n) s = .next t ∧ (t.mem.word k).toNat % 2 ^ 20 = w.toNat % 2 ^ 20 + m
              ∧ tells t (.reply r (BitVec.ofNat 64 (w.toNat / 2 ^ 40 % 16)) none))
          ∧ (∀ p : BitVec 4, r.op = .bwt p → p.toNat ≠ w.toNat / 2 ^ 40 % 16 →
            ∃ t, exec (.homeBwt n) s = .next t ∧ t.mem = s.mem ∧ tells t (.answer r none)))


/-! ### Watching, fences, travel, barriers, counts -/

/-- WATCH, UNWATCH, WAITA and BWT (R191, R193, R211) at the own scratchpad: WATCH records the home's answer, UNWATCH forgets the
watch, WAITA is done when the word differs from its operand and else waits for a store, BWT is done when the phase has passed
and else waits. At a powered, sound word of it each completes: WATCH with its entry in the home's table, or polled when the table
is full; UNWATCH with no watch left at the home; WAITA of a word that differs from its operand; BWT of a phase that has passed. -/
def Obligations.WatchAndWaitAtOwnScratchpad : Prop :=
  ∀ (a b : Reg) (o : Bool) (c : Scope) (s u : State) (v : Option Word) (w : Word),
    let x := s.plain a
    s.ready2 a b = none → s.ready2 a .zr = none → s.direct x = true → s.orderHeld s.cur (s.homeNow x) = false →
    (s.addrFault x 8 8 = none → s.watches x = true → s.Signed (.watch a) false → exec (.watch a) s = .next (s.ended (.watch a) s))
      ∧ (s.addrFault x 8 8 = none → s.watches x = false → s.Signed (.watch a) false → s.home s.here (s.req x .watch none) = (u, .answered v) →
        exec (.watch a) s = .next (s.ended (.watch a) (u.tookWatch x v.isSome false)))
      ∧ (s.addrFault x 8 8 = none → s.Signed (.unwatch a) false →
        ∃ t, exec (.unwatch a) s = .next t ∧ t.th.pc = s.th.pc + 4 ∧ t.mem = s.mem ∧ t.me.watching.find (s.watchKey x) = none
          ∧ t.me.polled.find (s.watchKey x) = none)
      ∧ (s.addrFault x 8 8 = none → s.watches x = true →
        (s.withMe (fun c => { c with ready := false })).home s.here (s.req x .waita none) = (u, .answered (some w)) →
        (w ≠ s.plain b → u.Signed (.waita b a) false → u.me.watching.find (u.watchKey x) ≠ some true →
            exec (.waita b a) s = .next (u.ended (.waita b a) u))
          ∧ (w = s.plain b → u.me.ready = false →
            exec (.waita b a) s = .next (u.withMe (fun c => { c with bay := none, run := .waiting .watch }))))
      ∧ (s.addrFault x 16 16 = none → s.Signed (.bwt a b o c) false →
        s.home s.here (s.req x (.bwt (BitVec.ofNat 4 (s.plain b).toNat)) none) = (u, .answered v) →
        exec (.bwt a b o c) s = .next (s.ended (.bwt a b o c) u))
      ∧ (s.addrFault x 16 16 = none → s.home s.here (s.req x (.bwt (BitVec.ofNat 4 (s.plain b).toNat)) none) = (u, .queued) →
        exec (.bwt a b o c) s = .next (u.withMe (fun m =>
          { m with bay := some (.bwt a b o c, s.req x (.bwt (BitVec.ofNat 4 (s.plain b).toNat)) none), run := .waiting .reply })))
      ∧ (s.addrFault x 8 8 = none → s.watches x = false → s.PadWord s.here x.toNat → s.Signed (.watch a) false →
        s.me.holdsThread = true → (x.toNat, s.cur) ∉ (s.core s.here).watches →
        ∃ t, exec (.watch a) s = .next t ∧ t.th.pc = s.th.pc + 4 ∧ t.mem = s.mem ∧ t.me.watching.find (s.watchKey x) = some false
          ∧ ((s.core s.here).watches.length < 32 → (x.toNat, s.cur) ∈ (t.core s.here).watches)
          ∧ (32 ≤ (s.core s.here).watches.length → t.me.polled.find (s.watchKey x) = some (s.mem.word x.toNat)))
      ∧ (s.addrFault x 8 8 = none → s.PadWord s.here x.toNat → s.Signed (.unwatch a) false →
        ∃ t, exec (.unwatch a) s = .next t ∧ t.th.pc = s.th.pc + 4 ∧ (x.toNat, s.cur) ∉ (t.core s.here).watches)
      ∧ (s.addrFault x 8 8 = none → s.watches x = true → s.PadWord s.here x.toNat → s.th.sig.en = false → s.mem.word x.toNat ≠ s.plain b →
        ∃ t, exec (.waita b a) s = .next t ∧ t.th.pc = s.th.pc + 4 ∧ t.mem = s.mem ∧ t.me.ready = false ∧ t.me.run ≠ .waiting .watch)
      ∧ (s.addrFault x 16 16 = none → s.PadWord s.here x.toNat → s.Signed (.bwt a b o c) false →
        (s.mem.word x.toNat).toNat / 2 ^ 40 % 16 ≠ (s.plain b).toNat % 16 →
        ∃ t, exec (.bwt a b o c) s = .next t ∧ t.th.pc = s.th.pc + 4 ∧ t.mem = s.mem ∧ t.me.bay = none)

/-- PREF, FENCE, FLUSH and WAIT (R194 to R196, R212): PREF asks the home of a global line that the core does not hold and is done;
FENCE at th is done at once, at wider scopes when nothing of the thread or, beyond the cluster, of the core is outstanding;
FLUSH of a line that the core does not hold is done, else it goes to the home; WAIT is done when no count is above its limit. -/
def Obligations.PrefetchFenceFlushWait : Prop :=
  ∀ (a : Reg) (c : Scope) (p q m n : BitVec 4) (s : State),
    let x := s.plain a
    let line := vkey (s.asnOf s.cur) x / 32 * 32
    (s.ready2 a .zr = none → s.Signed (.pref a) false →
        (isPad x = true ∨ s.homeOf s.cur x = none ∨ s.pageOf (vkey (s.asnOf s.cur) x) = none ∨ (s.copyOf x 1).isSome = true →
            exec (.pref a) s = .next (s.ended (.pref a) s))
          ∧ (isPad x = false → (s.homeOf s.cur x).isSome = true → (s.pageOf (vkey (s.asnOf s.cur) x)).isSome = true → s.copyOf x 1 = none →
            exec (.pref a) s = .next (s.ended (.pref a) (s.request (s.homeNow x) { s.req x .prefetch none with key := line }))))
      ∧ (s.me.barred = none → s.Signed (.fence c) false → (c = .th ∨ (s.flushAll s.cur = s ∧ s.releaseWait c = none)) →
        exec (.fence c) s = .next (s.ended (.fence c) s))
      ∧ (s.ready2 a .zr = none → (s.homeOf s.cur x).isSome = true → s.Signed (.flush a) false →
        (isPad x = true ∨ ((∀ e ∈ (s.core s.here).wcb, e.line ≠ line) ∧ ∀ l ∈ (s.core s.here).l1, l.key ≠ line) →
            exec (.flush a) s = .next (s.ended (.flush a) s))
          ∧ (isPad x = false → (s.core s.here).wcb = [] → (∃ l ∈ (s.core s.here).l1, l.key = line) → s.me.unack < 32 →
            s.orderHeld s.cur (s.homeNow x) = false →
            ∃ t, exec (.flush a) s = .next t ∧ t.net = s.net ++ [⟨s.here, s.homeNow x, .req { s.req x .flush none with key := line }⟩]
              ∧ (∀ l ∈ (t.core s.here).l1, l.key ≠ line) ∧ t.me.posted = s.me.posted ++ [{ s.req x .flush none with key := line }]
              ∧ t.th.pc = s.th.pc + 4))
      ∧ (s.me.barred = none → s.Signed (.wait p q m n) false →
        (∀ z ∈ [(s.me.outld, p), (s.outst s.cur, q), (s.outcp s.cur, m), (s.outmx s.cur, n)], z.2 = 15 ∨ z.1 ≤ z.2.toNat) →
        exec (.wait p q m n) s = .next (s.ended (.wait p q m n) s))
      ∧ (s.me.barred = none → (∃ z ∈ [(s.me.outld, p), (s.outst s.cur, q), (s.outcp s.cur, m), (s.outmx s.cur, n)], z.2 ≠ 15 ∧ z.2.toNat < z.1) →
        exec (.wait p q m n) s = .next (s.withMe (fun z => { z with run := .waiting (.counts p.toNat q.toNat m.toNat n.toNat) })))

/-- MIGR (R54, R197): where the thread is already at the home it is done; else, with its buffered stores sent and its drains done, and
no engine state that cannot travel, the thread goes in a message with its pc past the instruction, the fetcher state, ACTCUR, the
undequeued records of the engine lanes and the registers of the mask, each as a packet reads it, the others zero; ib stays with the
core, and without live engine state it writes no memory. Until its drains are done it waits; live engine state without a stack slot to
save it in raises BAD_ADDRESS.

A general register arrives as the drained foot leaves it: no kill wave is on its way and no result of a younger packet has landed. -/
def Obligations.MigrCarriesTheThread : Prop :=
  ∀ (d a : Reg) (s : State) (h : Nat), ctxOf s.cur ≠ 0 → s.th.comp = false → s.ready2 a d = none → s.homeOf s.cur (s.plain a) = some h →
    s.Signed (.migr d a) false →
    (h = s.here → exec (.migr d a) s = .next (s.ended (.migr d a) s))
      ∧ (h ≠ s.here → (s.th.engineLive && s.th.slot.isNone) = false → (s.flushAll s.cur).mayDepart s.cur = true → s.th.sig.en = false →
        ∃ t p, exec (.migr d a) s = .next t ∧ (s.th.engineLive = false → t.mem = s.mem) ∧ (⟨s.here, h, .migrate p⟩ : Msg) ∈ t.net
          ∧ p.th.pc = s.th.pc + 4 ∧ p.th.launch = s.th.launch ∧ p.th.wid = s.th.wid ∧ p.th.nest = s.th.nest ∧ p.th.actcur = s.th.actcur
          ∧ p.th.cq = s.th.cq ∧ p.th.mq = s.th.mq ∧ p.th.vq = s.th.vq ∧ (t.core s.here).ib = (s.core s.here).ib
          ∧ (∀ n : Fin 16, (s.plain d).getLsbD n.val = false → p.th.gpr.get n.val 0 = 0)
          ∧ (s.me.waves = [] → (∀ e ∈ s.me.landing, seqGt e.seq s.seqNow = false) →
            ∀ (n : Fin 16) (v : Word), (s.plain d).getLsbD n.val = true → s.me.view n = some v → p.th.gpr.get n.val 0 = v))
      ∧ (h ≠ s.here → (s.th.engineLive && s.th.slot.isNone) = false → (s.flushAll s.cur).mayDepart s.cur = false →
        exec (.migr d a) s = .next ((s.flushAll s.cur).withMe
          (fun c => { c with run := .waiting (.depart h ((s.plain d).truncate 16) false true) })))
      ∧ (h ≠ s.here → (s.th.engineLive && s.th.slot.isNone) = true → exec (.migr d a) s = .next (s.trap .badAddress (s.plain a)))


/-! ### Messages and local time -/

/-- SEND (R199 to R202): a destination of the partition gets a message with the sender's core and context, its kind (5 from context 0,
else 0), tag and detail in the header and the second operand for payload; the operation enters UNACK and counts as sent by the
launch; a bad destination raises BAD_ADDRESS. A message behind one that was refused stays behind it (R201). -/
def Obligations.SendSendsItsMessage : Prop :=
  ∀ (a b : Reg) (s u : State) (x y : Word), s.operands a b .zr = .ok u x y → s.me.barred = none →
    let i := Instr.send a b
    let dst := x.toNat % 2 ^ 12
    let hdr : Word := BitVec.ofNat 64 (s.here * 2 ^ 52 + ctxOf s.cur * 2 ^ 48 + (if ctxOf s.cur = 0 then 5 else 0) * 2 ^ 44
      + x.toNat / 2 ^ 16 % 2 ^ 8 * 2 ^ 32 + x.toNat / 2 ^ 32)
    let r : Req := ⟨s.cur, s.th.tid, s.seqNow, none, x, 0, .msg, 0⟩
    (x.toNat / 2 ^ 24 % 2 ^ 8 ≠ 0 ∨ isCore dst = false ∨ s.partOf (dieOf dst) ≠ s.partOf (dieOf s.here) →
        exec i s = .next (s.trap .badAddress x))
      ∧ (s.badDest x = false → s.me.unack < 32 → s.Signed i false → u.behind s.cur dst = false →
        ∃ t, exec i s = .next t ∧ t.net = u.net ++ [⟨s.here, dst, .send r (x.toNat / 2 ^ 12 % 16) s.th.launch ⟨hdr, y⟩⟩]
          ∧ t.me.posted = u.me.posted ++ [r] ∧ t.th.pc = s.th.pc + 4 ∧ t.mem = u.mem
          ∧ (t.core s.here).sent.get s.th.launch 0 = (u.core s.here).sent.get s.th.launch 0 + 1)
      ∧ (s.badDest x = false → s.me.unack < 32 → s.Signed i false → u.behind s.cur dst = true →
        ∃ t, exec i s = .next t ∧ t.net = u.net ∧ t.th.pc = s.th.pc + 4
          ∧ (t.core s.here).msgResends = (u.core s.here).msgResends ++ [⟨r, dst, x.toNat / 2 ^ 12 % 16, s.th.launch, ⟨hdr, y⟩, none, 0⟩])

/-- TSEND, TDEQ, TNULL and ADVT (R203 to R205, R360, R362): TSEND stamps its message with TNEXT, which must lie at or past VT plus the
link's lookahead, else LOOKAHEAD; TDEQ takes the head of the lane when its stamp lies below the bound and its context is the oldest
waiter, sets VT to it, MSGHDR and its destination, and else waits; TNULL gives every link cause to announce; ADVT raises VT, at most to
the bound and the head. Outside a launch with local time each raises BAD_ADDRESS, TDEQ and TNULL, which have no operand, with 0 in
DETAIL (log 26).

LOCAL TIME GOES ON (R360, R362, R364 to R368): the bound is the least announced value plus lookahead over the input links; an
announcement carries the published value, to which VT rises; a received one of the same launch raises its link's value; a round without
progress at a zero-lookahead link gives every waiter of the core ZERO_LOOKAHEAD with the link's number; at the end of time VT is all
ones and the lane is empty. -/
def Obligations.LocalTime : Prop :=
  (∀ (a b d : Reg) (s u : State) (x y : Word) (t : LTime), s.me.barred = none →
    (s.ltOf s.cur = none → (s.operands a b .zr = .ok u x y → exec (.tsend a b) s = .next (s.trap .badAddress x))
        ∧ exec (.tdeq d) s = .next (s.trap .badAddress 0) ∧ exec .tnull s = .next (s.trap .badAddress 0)
        ∧ (s.operands a .zr .zr = .ok u x y → exec (.advt a) s = .next (s.trap .badAddress x)))
      ∧ (s.ltOf s.cur = some t →
        (∀ o, s.operands a b .zr = .ok u x y → s.badDest x = false → t.outs.find? (fun o => o.dst == x.toNat % 2 ^ 12) = some o →
            (s.th.tnext = BitVec.allOnes 64 ∨ s.th.tnext.toNat < min (2 ^ 64 - 1) (t.vt.toNat + o.l) →
                o.l < 2 ^ 64 → exec (.tsend a b) s = .next (s.trap .lookahead s.th.tnext))
              ∧ (s.th.tnext ≠ BitVec.allOnes 64 → t.vt.toNat + o.l ≤ s.th.tnext.toNat → o.l < 2 ^ 64 → s.me.unack < 32 →
                s.Signed (.tsend a b) false → s.behind s.cur o.dst = false →
                ∃ t' r m, exec (.tsend a b) s = .next t' ∧ t'.th.pc = s.th.pc + 4 ∧ m.data = y
                  ∧ (⟨s.here, o.dst, .timed r s.th.launch ⟨s.th.tnext, s.here, t.sends, m⟩⟩ : Msg) ∈ t'.net
                  ∧ t'.me.posted = u.me.posted ++ [r]))
          ∧ (∀ m rest, t.lane = m :: rest → m.stamp.toNat < t.bound.toNat → (s.tdeqOrder s.here = [] ∨ (s.tdeqOrder s.here).head? = some s.cur) →
            s.Signed (.tdeq d) false →
            exec (.tdeq d) s = .next (s.ended (.tdeq d) ((((s.onLt s.here (fun t => { t with
                vt := m.stamp, lane := rest, waiters := (s.tdeqOrder s.here).filter (fun k => k != s.cur) })).withTh
                  (fun h => { h with msghdr := m.msg.hdr })).note s.cur 0x6 s.seqNow s.th.pc m.msg.hdr m.msg.data).put d m.msg.data)))
          ∧ ((t.lane = [] ∨ ∃ m rest, t.lane = m :: rest ∧ t.bound.toNat ≤ m.stamp.toNat) →
            ∃ t', exec (.tdeq d) s = .next t' ∧ t'.me.run = .waiting .time ∧ t'.th = s.th ∧ t'.mem = s.mem)
          ∧ (s.Signed .tnull false → exec .tnull s = .next (s.ended .tnull (s.onLt s.here (fun t =>
              { t with outs := t.outs.map (fun o => { o with tnull := true }) }))))
          ∧ (s.operands a .zr .zr = .ok s x y → s.Signed (.advt a) false → (s.core s.here).lt = some t →
            ∃ t', exec (.advt a) s = .next t' ∧ t'.th.pc = s.th.pc + 4
              ∧ ((t'.core s.here).lt.map (fun t => t.vt.toNat)) = some (max t.vt.toNat (min x.toNat (min t.bound.toNat t.headStamp.toNat))))))
    ∧ ((∀ t : LTime, (t.ins = [] → t.bound = BitVec.allOnes 64)
      ∧ ((∀ i ∈ t.ins, i.l < 2 ^ 64) → (∀ i ∈ t.ins, t.bound.toNat ≤ min (2 ^ 64 - 1) (i.ann.toNat + i.l))
        ∧ (t.ins ≠ [] → ∃ i ∈ t.ins, t.bound.toNat = min (2 ^ 64 - 1) (i.ann.toNat + i.l))))
    ∧ ∀ (s : State) (core dest n : Nat) (t : LTime),
      (∀ o, ((s.ltTouch core).core core).lt = some t → t.outs.find? (fun o => o.dst == dest) = some o →
          (s.ltTouch core).mayAnnounce core t o = true →
          ∃ u t', exec (.announcement core dest) s = .next u
            ∧ u.net = s.net ++ [⟨core, dest, .announce core t.launch ((s.ltTouch core).published core t)⟩] ∧ (u.core core).lt = some t'
            ∧ t'.vt.toNat = max t.vt.toNat ((s.ltTouch core).published core t).toNat ∧ t'.lane = t.lane ∧ t'.ins = t.ins ∧ u.mem = s.mem)
        ∧ (∀ src dst from_ l v, s.msgAt n = some ⟨src, dst, .announce from_ l v⟩ → (s.core dst).lt = some t →
          ∃ u t', exec (.announcementReceive n) s = .next u ∧ (u.core dst).lt = some t' ∧ t'.vt = t.vt ∧ t'.lane = t.lane ∧ u.mem = s.mem
            ∧ (l = t.launch → t'.ins = t.ins.map (fun i =>
              if i.src == from_ then { i with ann := if i.ann.toNat < v.toNat then v else i.ann } else i))
            ∧ (l ≠ t.launch → t'.ins = t.ins))
        ∧ (∀ k i j, ((s.ltTouch core).core core).lt = some t → t.roundAt + 256 ≤ (s.core core).cyc → (s.core core).dbg.stopped = false →
          t.ins[k]? = some i → i.l = 0 → (∀ m i', m < k → t.ins[m]? = some i' → i'.l ≠ 0) → (s.ltTouch core).ltBlocked core t = true →
          (s.core core).trounds ≠ 0 → (s.core core).trounds.toNat ≤ t.rounds + 1 → 0 < j → j < 16 →
          (s.ctx (core * 16 + j)).inTdeq = true → (s.ctx (core * 16 + j)).th.launch = t.launch →
          ∃ u, exec (.zeroLookaheadRound core) s = .next u ∧ (u.ctx (core * 16 + j)).asyncs.get 1 0 = BitVec.ofNat 64 k
            ∧ (u.ctx (core * 16 + j)).th = (s.ctx (core * 16 + j)).th ∧ u.mem = s.mem)
        ∧ ((s.core core).lt = some t → s.ltGone core t = true → t.timeEnded = false →
          ∃ u t', exec (.endOfTime core) s = .next u ∧ (u.core core).lt = some t' ∧ t'.vt = BitVec.allOnes 64 ∧ t'.timeEnded = true
            ∧ t'.lane = [] ∧ u.mem = s.mem))


/-! ### Tasks and contexts -/

/-- SPAWN (R48, R49, R149): with a readable 64-byte block, its release done and a die that takes the task now, the launch has one
task more, with the block's entry, arguments and identifier: in the ready queue of the own die, else on its way to another. Where the
die does not take it now, the context waits and nothing is queued.

LNCH (R156): with its block readable, its release done and a place among the partition's 64 blocks, the partition's scheduler
holds the block's 256 bytes behind those already submitted. -/
def Obligations.SpawnAndLnchSubmit : Prop :=
  (∀ (a b : Reg) (f : BitVec 3) (s u w : State) (x y : Word) (k die : Nat), ctxOf s.cur ≠ 0 →
    s.operands a (if f.toNat < 2 then .zr else b) .zr = .ok u x y → x.toNat % 64 = 0 → s.badAddr s.cur x = false →
    u.flushAll u.cur = u → u.releaseWait .pk = none → u.readBlock x 64 = .ok (w, k) →
    (w.mem.word k).toNat % 4 = 0 → (w.mem.word k).toNat < 2 ^ 48 → w.spawnDie f y = .ok die → w.here = s.here →
    (w.spawnReady s.cur die = false → exec (.spawn a b f) s = .next (w.withMe (fun c => { c with run := .waiting (.spawn die) })))
    ∧ (w.spawnReady s.cur die = true → s.Signed (.spawn a b f) false →
    let task : Task := ⟨s.th.launch, BitVec.ofNat 48 (w.mem.word k).toNat, (List.range 6).map (fun n => w.mem.word (k + 8 * (n + 1))),
      w.mem.word (k + 56), s.th.prio, none, none, none, f == 1, 0, 0, 0⟩
    ∃ t, exec (.spawn a b f) s = .next t ∧ t.th.pc = s.th.pc + 4 ∧ t.mem = w.mem
      ∧ (die = dieOf s.here → (t.die die).queue = (w.die die).queue ++ [{ task with born := w.stamp }])
      ∧ (die ≠ dieOf s.here → t.net = w.net ++ [⟨s.here, 0x1000 + die, .spawn task⟩])
      ∧ (t.launches = (w.launches.map (fun l => if l.num == s.th.launch && !l.ended then { l with tasks := l.tasks + 1 } else l)))))
    ∧ (∀ (a : Reg) (s u w : State) (x y : Word) (k : Nat), s.operands a .zr .zr = .ok u x y → x.toNat % 256 = 0 → s.badAddr s.cur x = false →
    u.flushAll u.cur = u → u.releaseWait .sy = none → u.readBlock x 256 = .ok (w, k) →
    w.blocksHeld (s.partOf (dieOf s.here)) < 64 → s.Signed (.lnch a) false →
    ∃ t, exec (.lnch a) s = .next t ∧ t.th.pc = s.th.pc + 4 ∧ t.mem = w.mem
      ∧ (t.part (s.partOf (dieOf s.here))).submitted = (w.part (s.partOf (dieOf s.here))).submitted
        ++ [⟨x, ⟨s.partOf (dieOf s.here), s.asnOf s.cur, s.rangesOf s.cur⟩, w.mem.bytes k 256⟩])

/-- CTXS, CTXR and PRMT (R153 to R155) in context 0: CTXS starts a thread of a launch of the partition in a vacant context, from the
block's entry, mask and arguments, once the context's earlier operations to the block's home are performed; CTXR leaves the context
without its thread; PRMT asks a context to be suspended, or admits the thread that was suspended first to a vacant context. That bits
[31:16] of the block's word 0x08 are ignored is log 74, that the registers of the thread that no rule gives are zero is log 11, and that
a context reserved under R45 is not taken is log 75. -/
def Obligations.SupervisorStartsAndStopsContexts : Prop :=
  ∀ (a b : Reg) (s u w : State) (x y : Word) (n k : Nat) (l : Launch), ctxOf s.cur = 0 → 0 < n → n < 16 → x.toNat = n →
    let cid := s.here * 16 + n
    (s.operands a b .zr = .ok u x y → y.toNat % 64 = 0 → (s.ctx cid).run = .vacant → (s.ctx cid).reserved = none →
        s.badAddr s.cur y = false →
        let r := u.flushWcb s.cur (u.homeNow y)
        r.orderHeld s.cur (u.homeNow y) = false → r.onWay s.cur (u.homeNow y) = false → r.readBlock y 64 = .ok (w, k) →
        (w.mem.word k).toNat % 4 = 0 → (w.mem.word k).toNat < 2 ^ 48 →
        w.launchIn (dieOf s.here) (s.partOf (dieOf s.here) * 2 ^ 32 + (w.mem.word (k + 8)).toNat / 2 ^ 32) = some l →
        (w.core s.here).powered = true → s.Signed (.ctxs a b) false →
        ∃ t, exec (.ctxs a b) s = .next t ∧ t.th.pc = s.th.pc + 4 ∧ (t.ctx cid).run = .runnable
          ∧ (t.ctx cid).th = { startThread l (BitVec.ofNat 48 (w.mem.word k).toNat) (BitVec.ofNat 16 (w.mem.word (k + 8)).toNat)
              ((List.range 6).map (fun j => w.mem.word (k + 8 * (j + 2)))) with tid := w.named + 1 })
      ∧ (s.operands a .zr .zr = .ok u x y → s.Signed (.ctxr a) false →
        exec (.ctxr a) s = .next (s.ended (.ctxr a) (u.reapCtx cid))
          ∧ ((u.ctx cid).run = .killed → u.oldestArrival s.here = none → u.oldestRescued s.here = none →
            ((u.reapCtx cid).ctx cid).run = .vacant))
      ∧ (s.operands a .zr .zr = .ok u x y → s.Signed (.prmt a) false → (s.ctx cid).holdsThread = true → u.ctx cid = s.ctx cid →
        ∃ t, exec (.prmt a) s = .next t ∧ (t.ctx cid).preempt = true ∧ (t.ctx cid).th = (s.ctx cid).th ∧ t.th.pc = s.th.pc + 4)
      ∧ (∀ p v, v.toNat = n + 16 → s.operands a .zr .zr = .ok u v y → s.Signed (.prmt a) false → (s.ctx cid).run = .vacant →
        (s.ctx cid).reserved = none → s.oldestSuspended s.here = some p →
        exec (.prmt a) s = .next (s.ended (.prmt a) ((u.unhold s.here p).letIn cid p)))

/-- WFW, HALT and YIELD (R150 to R152): with nothing outstanding and no activity, WFW leaves its context idle for the launch and
HALT leaves it vacant; in context 0 both are done at once where something already ends the sleep, and else sleep; YIELD is done
and the context gives up its turns until its slot has passed. -/
def Obligations.WfwHaltYield : Prop :=
  ∀ s : State,
    (ctxOf s.cur ≠ 0 → s.th.comp = false → s.th.actcur = 0 → s.me.unack = 0 → s.me.outld = 0 → s.th.settled = true → s.Signed .wfw false →
        ∃ t, exec .wfw s = .next t ∧ t.me.run = .idle ∧ t.th.pc = s.th.pc + 4 ∧ t.mem = s.mem ∧ t.net = s.net
          ∧ ∀ n, t.me.view n = s.me.view n)
      ∧ (ctxOf s.cur ≠ 0 → s.th.comp = false → s.th.actcur = 0 → s.drained s.cur = true → s.Signed .halt false →
        s.oldestArrival s.here = none → s.oldestRescued s.here = none →
        ∃ t, exec .halt s = .next t ∧ t.me.run = .vacant ∧ t.th = Thread.zero ∧ t.mem = s.mem)
      ∧ (ctxOf s.cur = 0 → s.sleepOver s.cur = true → ∀ i ∈ [Instr.wfw, .halt], s.Signed i false →
        exec i s = .next (s.ended i (s.withMe (fun c => { c with ready := false }))))
      ∧ (ctxOf s.cur = 0 → s.sleepOver s.cur = false → ∀ i ∈ [Instr.wfw, .halt],
        exec i s = .next (s.withMe (fun c => { c with run := .waiting .sleep })))
      ∧ (s.Signed .yield false → exec .yield s = .next (s.ended .yield (s.withMe (fun c => { c with yielded := true }))))


/-! ### Activities -/

/-- ACTB, ACTST, ACTA and ACTD (R157 to R159, R161, R163): ACTB opens the lowest free descriptor of the die under the slot's next
generation (one more than the last, 1 at first and after 0xFFFF_FFFF), in the domain of its operand or of the launch, and returns its
handle, or 0 when there is none (no launch, as in context 0, gives domain 0: log 97); ACTST returns the state code of a current handle,
15 of any other; ACTA moves an open activity to abandoning; ACTD takes the thread off its activity.

ACTJ and ACTE (R160, R162, R341): a thread without an activity joins an open one, which counts it; a handle that is not open changes
nothing; ACTE of an open activity without participants commits it and frees the descriptor, of an abandoned one frees it, waits while it
commits, unwinds or has participants, and does nothing else; a thread's own activity it first leaves. -/
def Obligations.ActivitiesBeginJoinAndEnd : Prop :=
  (∀ (k : Die) (n : Nat), freeActSlot k = some n ↔
      n < 256 ∧ (∀ c, k.acts.find n = some c → c.st = .free) ∧ ∀ m, m < n → ∃ c, k.acts.find m = some c ∧ c.st ≠ .free)
    ∧ (∀ (d a : Reg) (s u : State) (x y : Word),
    (s.th.comp = false → s.operands a .zr d = .ok u x y → x.toNat / 2 ^ 8 % 2 ^ 55 = 0 → s.Signed (.actb d a) false →
        (freeActSlot (s.die (dieOf s.here)) = none → exec (.actb d a) s = .next (s.ended (.actb d a) (u.put d 0)))
          ∧ (∀ n, freeActSlot (s.die (dieOf s.here)) = some n →
            ∃ act, exec (.actb d a) s = .next (s.ended (.actb d a) ((u.onDie (dieOf s.here) (fun k =>
                { k with acts := k.acts.set n act })).put d (handleOf (dieOf s.here) n act)))
              ∧ act.st = .opened ∧ act.launch = s.th.launch ∧ act.parts = 0
              ∧ act.gen.toNat = (let g := ((((s.die (dieOf s.here)).acts.find n).map (fun (c : Act) => c.gen.toNat)).getD 0)
                if g = 2 ^ 32 - 1 then 1 else g + 1)
              ∧ (x.toNat < 2 ^ 63 → act.domain = x.toNat % 256)
              ∧ (2 ^ 63 ≤ x.toNat → act.domain = ((s.launch s.th.launch).map (fun (l : Launch) => l.domain)).getD 0)))
      ∧ (s.operands a .zr d = .ok u x y → s.Signed (.actst d a) false →
        exec (.actst d a) s = .next (s.ended (.actst d a) (u.put d (match (s.actOf x).map (fun (c : Act) => c.st) with
          | some ActSt.opened => 0 | some ActSt.committing => 1 | some ActSt.abandoning => 2 | some ActSt.abandoned => 3
          | some ActSt.failed => 4 | _ => 15))))
      ∧ (s.operands a .zr .zr = .ok u x y → u.flushAll u.cur = u → u.releaseWait .pk = none → s.Signed (.acta a) false →
        exec (.acta a) s = .next (s.ended (.acta a) (u.abandon x)))
      ∧ (s.th.actcur = 0 → s.Signed .actd false → exec .actd s = .next (s.ended .actd s))
      ∧ (s.th.actcur ≠ 0 → s.flushAll s.cur = s → s.releaseWait .pk = none → s.Signed .actd false →
        ∃ t, exec .actd s = .next t ∧ t.th.actcur = 0 ∧ t.th.pc = s.th.pc + 4 ∧ t.dies = (s.leaveAct s.th.actcur).dies ∧ t.mem = s.mem))
    ∧ (∀ (a : Reg) (s u : State) (x y : Word), s.operands a .zr .zr = .ok u x y →
    (s.Signed (.actj a) false → (s.th.comp = true ∨ s.actState x ≠ .opened ∨ s.th.actcur = x) →
        exec (.actj a) s = .next (s.ended (.actj a) u))
      ∧ (s.Signed (.actj a) false → s.th.comp = false → s.actState x = .opened → s.th.actcur ≠ x → u.th.actcur = 0 →
        exec (.actj a) s = .next (s.ended (.actj a) ((u.onAct x (fun c => { c with parts := c.parts + 1 })).withTh
          (fun t => { t with actcur := x }))))
      ∧ (s.Signed (.acte a) false → s.th.actcur = x → x ≠ 0 → u.flushAll u.cur = u → u.releaseWait .pk = none →
        (u.detach s.cur).actState x = .opened → (u.detach s.cur).acteReady x = true →
        exec (.acte a) s = .next (s.ended (.acte a) ((u.detach s.cur).commit x)))
      ∧ (s.Signed (.acte a) false → s.th.actcur ≠ x → u.actState x = .opened → u.acteReady x = true →
        exec (.acte a) s = .next (s.ended (.acte a) (u.commit x)))
      ∧ (s.Signed (.acte a) false → s.th.actcur ≠ x → u.actState x = .abandoned →
        exec (.acte a) s = .next (s.ended (.acte a) (u.freeAct x)))
      ∧ (s.Signed (.acte a) false → (s.th.actcur ≠ x ∨ x = 0) → (u.actState x = .failed ∨ u.actState x = .free) →
        exec (.acte a) s = .next (s.ended (.acte a) u))
      ∧ (s.th.actcur ≠ x → (u.actState x = .committing ∨ u.actState x = .abandoning ∨ (u.actState x = .opened ∧ u.acteReady x = false)) →
        exec (.acte a) s = .next (u.withMe (fun c => { c with run := .waiting (.activity x) }))))

/-- CPUSH and CRET (R164, R165, R339, R340, R349, R354): CPUSH writes the routine, the handle and the 32-byte block into the lowest free
record of the die's region, keeps the push as its thread's own at its address (log 72) and waits; executed again, it waits until the
record of its push is durable and then is done. CRET with status 0 ends the routine's thread with its record done; any other status
fails it and freezes the domain.

THE SEPIA UNITS GO ON (R336, R339, R341, R344, R345, R347, R349, R350): a draw gives a pushed record its domain's next stamp and makes
it valid while its activity may still be undone (log 63), and the push knows it wherever its thread is; the written record becomes
durable; the unwind posts the valid record of the largest stamp on its die and lets an activity without records be abandoned; a posted
routine is bound with its arguments, handle and stamp in compensation mode; SEPIACTL retries, skips or fails the record that froze its
domain, or sets ERR. -/
def Obligations.CompensationAndUnwinding : Prop :=
  (∀ (a b : Reg) (s u : State) (x y : Word),
    (s.th.comp = false → s.operands a b .zr = .ok u x y →
      (∀ p, s.th.pendingPush = some p → s.pushDurable p = true → s.Signed (.cpush a b) false →
          exec (.cpush a b) s = .next (s.ended (.cpush a b) (u.withTh (fun t => { t with pushes := t.pushes.erase p }))))
        ∧ (∀ p, s.th.pendingPush = some p → s.pushDurable p = false →
          exec (.cpush a b) s = .next (u.withMe (fun c => { c with run := .waiting .durable }))))
      ∧ (s.th.comp = false → s.operands a b .zr = .ok u x y → s.th.pendingPush = none → s.th.actcur ≠ 0 → x.toNat % 4 = 0 →
        y.toNat % 32 = 0 → x.toNat < 2 ^ 48 → s.badAddr s.cur y = false → u.me.unack = 0 →
        (∀ w k n, u.actState s.th.actcur = .opened → u.readBlock y 32 = .ok (w, k) →
            freeRecSlot (w.die (dieOf s.here)) = some n →
            ∃ t, exec (.cpush a b) s = .next t ∧ t.me.run = .waiting .durable ∧ t.mem = w.mem
              ∧ t.th.pushes = w.th.pushes ++ [⟨s.th.pc, dieOf s.here, n, 0⟩]
              ∧ (t.die (dieOf s.here)).sepia.find n = some ⟨BitVec.ofNat 48 x.toNat, s.th.actcur, 0,
                  (List.range 4).map (fun j => w.mem.word (k + 8 * j)), s.here, ctxOf s.cur, false, false, false, false, false⟩)
          ∧ (u.actState s.th.actcur ≠ .opened → s.Signed (.cpush a b) false →
            exec (.cpush a b) s = .next (s.ended (.cpush a b) u)))
      ∧ (∀ die slot r, s.th.comp = true → s.operands a .zr .zr = .ok s x y → s.drained s.cur = true → s.flushAll s.cur = s →
        s.releaseWait .pk = none → s.th.sig.en = false → s.th.routine = some (die, slot) → s.oldestArrival s.here = none →
        s.oldestRescued s.here = none → (s.die die).sepia.find slot = some r →
        ∃ t, exec (.cret a) s = .next t ∧ t.me.run = .vacant ∧ t.mem = s.mem
          ∧ (x = 0 → (t.die die).sepia.find slot = some { r with done := true, valid := false })
          ∧ (x ≠ 0 → (t.die die).sepia.find slot = some { r with failed := true }
            ∧ ((t.die (hDomain r.handle % 8)).doms.get (hDomain r.handle) ⟨1, none, none⟩).frozen = some (die, slot, x))))
    ∧ (∀ (s : State) (cid core slot : Nat) (r : SRec) (v : Word),
    (s.recOf cid (fun r => r.stamp == 0) = some (slot, r) →
        ∃ t, exec (.stampDraw cid) s = .next t ∧ t.mem = s.mem
          ∧ (t.die (dieOf (coreOf cid))).sepia.find slot = some { r with
            stamp := (s.dom (hDomain r.handle)).stamp, valid := s.actState r.handle == .opened || s.actState r.handle == .abandoning }
          ∧ (t.dom (hDomain r.handle)).stamp = (s.dom (hDomain r.handle)).stamp + 1
          ∧ ∀ c, (t.ctx c).th.pushes = (s.ctx c).th.pushes.map (fun p =>
            if p.die = dieOf (coreOf cid) ∧ p.slot = slot ∧ p.stamp = 0 then { p with stamp := (s.dom (hDomain r.handle)).stamp } else p))
      ∧ (s.recOf cid (fun r => r.stamp != 0 && !r.durable) = some (slot, r) →
        ∃ t, exec (.cpushDurable cid) s = .next t ∧ (t.die (dieOf (coreOf cid))).sepia.find slot = some { r with durable := true } ∧ t.mem = s.mem)
      ∧ (∀ dom : BitVec 8, (s.dom dom.toNat).frozen = none → (s.dom dom.toNat).running = none →
        ∃ t, exec (.unwindChoose dom) s = .next t ∧ t.mem = s.mem
          ∧ (∀ h ∈ s.unwindSet dom.toNat, (s.actOf h).isSome = true → s.validRecs h = [] → t.actState h = .abandoned)
          ∧ ((s.unwindSet dom.toNat).flatMap s.validRecs ≠ [] →
            ∃ q ∈ (s.unwindSet dom.toNat).flatMap s.validRecs, (∀ p ∈ (s.unwindSet dom.toNat).flatMap s.validRecs, p.2.2.stamp.toNat ≤ q.2.2.stamp.toNat)
              ∧ (t.dom (hDomain q.2.2.handle)).running = some (q.1, q.2.1)
              ∧ ∃ l, (t.die q.1).posts = (s.die q.1).posts ++ [(q.2.1, l)]))
      ∧ (∀ cluster post before rest l k, (s.die (cluster / 48)).posts = before ++ post :: rest →
        (∀ p ∈ before, s.postTarget cluster p = none) → s.launch post.2 = some l → (s.die (cluster / 48)).sepia.find post.1 = some r →
        s.target cluster ⟨post.2, r.routine, r.args, 0, 3, none, none, none, false, 0, 0, 0⟩ = some k → (s.ctx k).run = .vacant →
        (s.core (coreOf k)).powered = true →
        ∃ t, exec (.routineBind cluster) s = .next t ∧ (t.die (cluster / 48)).posts = before ++ rest ∧ (t.ctx k).run = .runnable
          ∧ (t.ctx k).th.pc = r.routine ∧ (t.ctx k).th.comp = true ∧ (t.ctx k).th.routine = some (cluster / 48, post.1)
          ∧ (t.ctx k).th.gpr.get 4 0 = r.handle ∧ (t.ctx k).th.gpr.get 5 0 = r.stamp ∧ (t.ctx k).th.launch = l.num
          ∧ (∀ j, j < 4 → (t.ctx k).th.gpr.get j 0 = r.args.getD j 0) ∧ t.mem = s.mem)
      ∧ (∀ h die, s.sepiaTarget core v = some (h, die, slot, r) →
        (v.toNat / 2 ^ 28 % 8 = 1 → ∃ t, exec (.sepiactlRetry core v) s = .next t ∧ (t.dom (hDomain h)).frozen = none
            ∧ (t.dom (hDomain h)).running = some (die, slot) ∧ (t.core core).sepiaErr = false ∧ t.mem = s.mem)
          ∧ (v.toNat / 2 ^ 28 % 8 = 2 → ∃ t, exec (.sepiactlSkip core v) s = .next t ∧ (t.dom (hDomain h)).frozen = none
            ∧ (t.die die).sepia.find slot = some { r with skipped := true, valid := false } ∧ (t.core core).sepiaErr = false ∧ t.mem = s.mem)
          ∧ (v.toNat / 2 ^ 28 % 8 = 3 → (s.actOf h).isSome = true → ∃ t, exec (.sepiactlFail core v) s = .next t
            ∧ (t.dom (hDomain h)).frozen = none ∧ t.actState h = .failed ∧ t.mem = s.mem
            ∧ (∀ d n q, (t.die d).sepia.find n = some q → q.handle = h → q.valid = false)))
      ∧ (s.sepiaTarget core v = none → ∀ i k, (i, k) ∈ [(Instr.sepiactlRetry core v, 1), (.sepiactlSkip core v, 2), (.sepiactlFail core v, 3)] →
        v.toNat / 2 ^ 28 % 8 = k → ∃ t, exec i s = .next t ∧ (t.core core).sepiaErr = true ∧ t.mem = s.mem))


/-! ### System registers -/

/-- MFS AND MTS (R24, R90, R166 to R169, R178, R217, R244, R254 to R256, R266, R267, R315, R328, R396, R402): with no privilege against
it and nothing to wait for, MFS writes the register's value to d and MTS gives the register the value of a in the fields that can be
written; what each shows and keeps is listed, and a write changes no other register of the list, no other context's thread and no byte
of memory. The copy of GTIME that 0x004 shows is log 87. That a number to which no register is assigned reads as 0 and keeps nothing is
the model's own (its word is ILLEGAL, R107, R167, and decodes to no instruction). -/
def Obligations.SystemRegistersReadAndWrite : Prop :=
  ∀ (d a : Reg) (r : BitVec 12) (s u : State) (x y : Word),
    ((ctxOf s.cur = 0 ∨ sysS r.toNat = false) → s.operands .zr .zr d = .ok u x y →
        (∀ w, s.sysWait r.toNat false = some w → exec (.mfs d r) s = .next (s.withMe (fun c => { c with run := .waiting w })))
          ∧ (s.sysWait r.toNat false = none → s.Signed (.mfs d r) false →
            exec (.mfs d r) s = .next (s.ended (.mfs d r) (u.put d (s.sysRead s.cur r.toNat)))))
      ∧ ((ctxOf s.cur = 0 ∨ sysSWrite r.toNat = false) →
        (∀ w, s.sysWait r.toNat true = some w → exec (.mts a r) s = .next (s.withMe (fun c => { c with run := .waiting w })))
          ∧ (s.sysWait r.toNat true = none → s.operands a .zr .zr = .ok u x y → s.Signed (.mts a r) false →
            exec (.mts a r) s = .next (s.ended (.mts a r) (u.sysWrite s.cur r.toNat x))))
      ∧ (∀ cid, let t := (s.ctx cid).th
        ∀ e ∈ [(0x000, (if t.comp then 32 else 0) + (if t.inTrap then 16 else 0) + (if cid % 16 = 0 then 1 else 0)),
            (0x002, cid % 16), (0x004, max (s.cluster (clusterOf (coreOf cid))).ns.toNat (s.now.toNat - 8)), (0x008, t.fpflags.toNat), (0x009, t.fpmode.toNat),
            (0x00A, t.feretry.toNat), (0x00B, (s.ctx cid).posted.length % 2 ^ 16), (0x00C, (s.ctx cid).lates.length % 2 ^ 16),
            (0x010, t.msghdr.toNat), (0x011, t.ebudget.toNat), (0x012, (s.core (coreOf cid)).ecost.toNat), (0x014, t.actcur.toNat),
            (0x01A, t.tnext.toNat), (0x020, t.mxsat.toNat), (0x021, t.mxnan.toNat), (0x022, t.mxbso.toNat), (0x023, t.mxthr.toNat),
            (0x030, t.tvec.toNat * 4), (0x031, t.epc.toNat * 4), (0x032, t.cause.toNat), (0x033, t.detail.toNat),
            (0x034, (s.core (coreOf cid)).deleg.toNat), (0x050, t.migmask.toNat), (0x0B1, (s.core (coreOf cid)).trclost.toNat),
            (0x005, 0), (0x015, 0), (0x025, 0), (0x035, 0), (0x062, 0), (0x072, 0), (0x0B2, 0), (0xFFF, 0)],
          (s.sysRead cid e.1).toNat = e.2)
      ∧ (∀ cid v n m, (n, m) ∈ [(0x008, 0x1F), (0x009, 0x3), (0x00A, 0xFFFF), (0x011, 0xFFFFFFFF), (0x012, 0xFFFFFFFFFFFFFFFF), (0x013, 0x1FFFF),
          (0x01A, 0xFFFFFFFFFFFFFFFF), (0x01B, 0xFFFFFFFF), (0x01C, 0xFFFF), (0x023, 0xFFFFFFFFFFFF), (0x024, 0xFFFF), (0x030, 0xFFFFFFFFFFFC),
          (0x031, 0xFFFFFFFFFFFC), (0x034, 0xFFFFFFFFFFFFFFFF), (0x050, 0xFFFF), (0x060, 0x7FFF8), (0x061, 0x3FFF8),
          (0x0B1, 0xFFFFFFFFFFFFFFFF)] →
          (s.sysWrite cid n v).sysRead cid n = v &&& m ∧ (s.sysWrite cid n v).mem = s.mem
            ∧ (∀ c, c ≠ cid → ((s.sysWrite cid n v).ctx c) = s.ctx c)
            ∧ (∀ k ∈ [0x000, 0x008, 0x009, 0x00A, 0x00B, 0x00C, 0x010, 0x011, 0x012, 0x013, 0x014, 0x01A, 0x01B, 0x01C, 0x020, 0x021, 0x022, 0x023, 0x024,
                0x028, 0x030, 0x031, 0x032, 0x033, 0x034, 0x050, 0x060, 0x061, 0x0B0, 0x0B1], k ≠ n →
              (s.sysWrite cid n v).sysRead cid k = s.sysRead cid k))
      ∧ (∀ cid v, (s.sysWrite cid 0x0B0 v).sysRead cid 0x0B0 = v &&& 0xFFFFFFFFFFFFFC00
        ∧ ((s.sysWrite cid 0x028 v).ctx cid).th.sig.en = v.getLsbD 0
        ∧ (∀ n ∈ [0x020, 0x021, 0x022], (s.sysWrite cid n v).sysRead cid n = 0)
        ∧ (∀ n, 0x90 ≤ n → n ≤ 0xAF → (s.sysWrite cid n v).sysRead cid n = 0)
        ∧ (∀ n ∈ [0x000, 0x001, 0x002, 0x003, 0x004, 0x00B, 0x00C, 0x00D, 0x00E, 0x00F, 0x010, 0x014, 0x018, 0x019, 0x032, 0x033, 0x040, 0x04F, 0x005, 0xFFF],
          s.sysWrite cid n v = s))

/-- SETTLE AND SCRUB (R172, R173, R223): in a handler SETTLE disposes of the named entry, of the delegating thread in context 0: a
replayed operation goes to its home again, a discarded store leaves UNACK, a supplied value enters the register that awaits it; a
settled or empty entry stays; the releases that waited for the disposed operation go out. SCRUB of aligned blocks of the own scratchpad
queues them for the scrubber. -/
def Obligations.SettleAndScrub : Prop :=
  ∀ (a : Reg) (e : BitVec 4) (c : BitVec 2) (n : BitVec 16) (s u : State) (x y : Word),
    (s.th.inTrap = true → s.operands (if c = 2 then a else .zr) .zr .zr = .ok u x y → s.Signed (.settle a e c) false →
        exec (.settle a e c) s = .next (s.ended (.settle a e c) ((u.settleEntry (s.scoreOwner s.cur) e.toNat c.toNat x).releasesDue s.here)))
      ∧ (∀ cid k act f v, (s.ctx cid).th.score.find k = some ⟨f, false⟩ →
        ((s.settleEntry cid k act v).ctx cid).th.score.find k = some ⟨f, true⟩ ∧ (s.settleEntry cid k act v).mem = s.mem
          ∧ (∀ r, f.op = .req r → f.kind ≤ 2 → r ∈ (s.ctx cid).posted → act = 1 →
            ((s.settleEntry cid k act v).ctx cid).unack + 1 = (s.ctx cid).unack)
          ∧ (∀ r, f.op = .req r → f.kind ≤ 4 → act = 0 →
            (s.settleEntry cid k act v).net = s.net ++ [⟨coreOf cid, (s.homeOf cid r.addr).getD (coreOf cid),
              .req { r with cid := cid, tid := (s.ctx cid).th.tid, tries := 0 }⟩])
          ∧ (∀ g, 3 ≤ f.kind → f.kind ≤ 4 → f.reg = some g → act = 2 → (s.ctx cid).awaited.find g.val = some f.seq →
            (s.ctx cid).landing.any (fun z => z.seq == f.seq && z.reg == g && z.val == .late) = false →
            ((s.settleEntry cid k act v).ctx cid).th.gpr.get g.val 0 = v ∧ ((s.settleEntry cid k act v).ctx cid).awaited.find g.val = none
              ∧ ((s.settleEntry cid k act v).ctx cid).lates = (s.ctx cid).lates.erase f.seq))
      ∧ (∀ cid k act v, ((s.ctx cid).th.score.find k = none ∨ ∃ f, (s.ctx cid).th.score.find k = some ⟨f, true⟩) → s.settleEntry cid k act v = s)
      ∧ (ctxOf s.cur = 0 → s.operands a .zr .zr = .ok u x y → x.toNat % 64 = 0 → 2 ^ 63 ≤ x.toNat → x.toNat < 2 ^ 63 + 2 ^ 31 →
        x.toNat / 2 ^ 19 % 2 ^ 12 = s.here → x.toNat % 2 ^ 19 + 64 * n.toNat ≤ 2 ^ 19 → s.Signed (.scrub a n) false →
        exec (.scrub a n) s = .next (s.ended (.scrub a n) (u.onCore s.here (fun k => { k with
          scrubs := k.scrubs ++ [(x.toNat % 2 ^ 19 / 64, n.toNat)] }))))


/-! ### The pipe's own steps -/

/-- TURNS, RETIREMENT, DRAINING AND THE SIDINGS (R62, R70, R77, R80, R81, R85, R136, R137): a turn goes to the slot's own
context, else to the first ready one from the pointer; ISSUE_TURN injects the word at the fetch address under the next
sequence; RETIRE certifies the oldest packet's landing entries; LANDING_DRAIN moves the oldest certified result into the
register store; a kill wave at the foot deletes what is younger and turns fetch to its address; the multiplier is free and the
divider's operation done in their cycles: a late quotient sets out for the foot, one toward a port for the place held for it, one of a
deleted packet is discarded, one already written only leaves the divider (log 18); the fetch port serves the contexts of a cluster
round robin, fills and misses. -/
def Obligations.PipeUnitsDoTheirSteps : Prop :=
  ∀ (s : State) (cid core : Nat),
    (∀ cyc spare ok, (ok (cyc % 16) = true → pickTurn cyc spare ok = some (cyc % 16, spare))
        ∧ (ok (cyc % 16) = false → ∀ k sp, pickTurn cyc spare ok = some (k, sp) →
          ok k = true ∧ ∃ d, d < 16 ∧ k = (spare + d) % 16 ∧ ∀ e, e < d → ok ((spare + e) % 16) = false))
      ∧ (∀ k sp w, (∀ j, j < 16 → s.alignNext (core * 16 + j) = none) →
        pickTurn (s.core core).cyc (s.core core).spare (fun k => s.mayTurn core k && s.mayInject (core * 16 + k)) = some (k, sp) →
        s.fetchWord (core * 16 + k) (s.ctx (core * 16 + k)).fetchPc = some w →
        ∃ t p, exec (.issueTurn core) s = .next t ∧ p.seq = (s.ctx (core * 16 + k)).seq ∧ p.pc = (s.ctx (core * 16 + k)).fetchPc ∧ p.op = w
          ∧ (t.ctx (core * 16 + k)).injected = (s.ctx (core * 16 + k)).injected ++ [p]
          ∧ (t.ctx (core * 16 + k)).seq = (s.ctx (core * 16 + k)).seq + 1 ∧ (t.core core).spare = sp
          ∧ (t.core core).cyc = (s.core core).cyc + 1 ∧ t.mem = s.mem)
      ∧ (∀ p rest, (s.ctx cid).retiring = p :: rest → (s.core (coreOf cid)).dbg.stepping ≠ some (ctxOf cid) →
        ∃ t, exec (.retire cid) s = .next t ∧ t.mem = s.mem ∧ t.ctx cid = { s.ctx cid with
            retiring := rest, landing := certify p.seq (s.ctx cid).landing, th := { (s.ctx cid).th with fpflags := (s.ctx cid).th.fpflags ||| p.flags } }
          ∧ (p.counts = [] → (t.core (coreOf cid)).prof = (s.core (coreOf cid)).prof)
          ∧ (∀ j x y, p.counts = [(j, x, y)] → (t.core (coreOf cid)).prof.get j (0, 0) =
            (BitVec.ofNat 24 (min (2 ^ 24 - 1) (((s.core (coreOf cid)).prof.get j (0, 0)).1.toNat + x)),
              BitVec.ofNat 40 (min (2 ^ 40 - 1) (((s.core (coreOf cid)).prof.get j (0, 0)).2.toNat + y)))))
      ∧ (∀ k q r v rest, k < 16 → (s.ctx (core * 16 + k)).landing = ⟨q, r, .ordinary v, true⟩ :: rest →
        (∀ j, j < 16 → j ≠ k → (s.ctx (core * 16 + j)).drainOne = none) →
        ∃ t, exec (.landingDrain core) s = .next t ∧ (t.ctx (core * 16 + k)).landing = rest
          ∧ (t.ctx (core * 16 + k)).th.gpr.get r.val 0 = v ∧ t.mem = s.mem)
      ∧ (∀ w rest, (s.ctx cid).waves = w :: rest →
        exec (.killWaveFoot cid) s = .next (s.onCtx cid (fun c => { c with
          waves := rest, landing := c.landing.filter (fun e => !seqGt e.seq w.s), injected := c.injected.filter (fun p => !seqGt p.seq w.s),
          fetchPc := w.redirect, seq := w.s + 1 })))
      ∧ (∀ k, (s.core core).mul = some k →
        ∃ t, exec (.multiplyDone core) s = .next t ∧ (t.core core).mul = (if k ≤ (s.core core).cyc then none else some k) ∧ t.mem = s.mem)
      ∧ (∀ d rest, (s.core core).divq = d :: rest → (s.core core).cyc < d.due → exec (.divideDone core) s = .next s)
      ∧ (∀ d rest, (s.core core).divq = d :: rest → d.due ≤ (s.core core).cyc → coreOf d.cid = core → (s.core core).atoms = [] →
        (d.use = .written → exec (.divideDone core) s = .next (s.onCore core (fun c => { c with divq := rest })))
          ∧ (d.use = .late ∨ d.use = .dropped → (s.ctx d.cid).th.tid = d.tid → d.seq ∈ (s.ctx d.cid).lates →
            ∃ t, exec (.divideDone core) s = .next t ∧ (t.core core).divq = rest
              ∧ (t.core core).late = (s.core core).late ++ (if d.use = .late then [⟨d.cid, d.seq, d.reg, d.value⟩] else [])
              ∧ (t.ctx d.cid).lates = (s.ctx d.cid).lates.erase d.seq ∧ t.mem = s.mem)
          ∧ (∀ i dir, d.use = .push i dir → (s.ctx d.cid).th.tid = d.tid → (s.ctx d.cid).run = .waiting .divided →
            (s.ctx d.cid).seqNow = d.seq → (s.ctx d.cid).th.sig.en = false →
            ∃ t, exec (.divideDone core) s = .next t ∧ (t.core core).divq = rest ∧ (t.ctx d.cid).run = .runnable
              ∧ (t.ctx d.cid).th.pc = (s.ctx d.cid).th.pc + 4 ∧ t.mem = s.mem
              ∧ ∃ far, far = ({ s with cur := d.cid }).facing dir ∧ t.net = s.net ++ [⟨core, coreOf far, .port far (backDir dir) d.value⟩]))
      ∧ (∀ n c b, (c, b) ∈ (s.cluster n).want → b ∈ (s.cluster n).icache →
        (∀ e ∈ (s.cluster n).want, e.2 ∈ (s.cluster n).icache → e = (c, b)
          ∨ (fetchPlace n c + 128 - (s.cluster n).next) % 128 < (fetchPlace n e.1 + 128 - (s.cluster n).next) % 128) →
        ∃ t, exec (.fetchServe n) s = .next t ∧ (c, b) ∈ (t.cluster n).served ∧ (∀ e ∈ (t.cluster n).want, e.2 ≠ b)
          ∧ (∀ e ∈ (s.cluster n).want, e.2 = b → e ∈ (t.cluster n).served) ∧ (t.cluster n).next = (fetchPlace n c + 1) % 128 ∧ t.mem = s.mem)
      ∧ (∀ n c b, (s.cluster n).served = [(c, b)] → (s.ctx c).fwant = some b →
        ∃ t, exec (.fetchFill n) s = .next t ∧ b ∈ (t.ctx c).fbuf ∧ (t.cluster n).served = []
          ∧ ((s.ctx c).fbuf.length ≤ 2 → (t.ctx c).fbuf.length ≤ 2) ∧ (t.ctx c).fwant ≠ some b)
      ∧ (∀ n b, ∃ t, exec (.instructionCacheFill n b) s = .next t ∧ b ∈ (t.cluster n).icache ∧ t.mem = s.mem
        ∧ (b ∈ (s.cluster n).icache ∨ (s.cluster n).icache.length < 2048 → ∀ x ∈ (s.cluster n).icache, x ∈ (t.cluster n).icache))

/-- LATE VALUES (R75, R76, R79, R86, R183, R221): a packet at stage 6 leaves late and goes on at PC + 4 with its sequence in OUTLD; a
reply for one that left starts down from stage 11, one for a packet still there is written and the packet done; a late value at the
foot enters the register that awaits it; a waiting packet is withdrawn and parks, wakes when its condition holds, a spawner then
leaving the order of its die (R49), and a held ALIGN is released with its siblings once they are there or its cycles have passed; a
fault reported for an operation that left is pending for its context. That a packet may leave late or be withdrawn in any step that
finds it waiting is log 14.

WHAT A BOUNDARY TAKES (R91, R215, R216, R220 to R222): a context that can reach a boundary takes, in this order, its late faults with
the first one's address in DETAIL, its oldest reply cause, its asynchronous event of the lowest place, a pre-emption; context 0
takes the core's oldest delegation with its detail; a core with a firmware fault starts context 0's firmware again and logs it. What
may come in place of which packet at a boundary is log 41, the function that logs the fault in whole mode log 32, how context 0
starts again log 46. -/
def Obligations.LateValuesWaitsAndBoundaries : Prop :=
  (∀ (s : State) (cid core n : Nat) (delay : BitVec 16),
    (∀ i r, (s.ctx cid).bay = some (i, r) → r.cid = cid → r.op.leaves = true → (s.ctx cid).th.sig.en = false →
        (r.op.takes = true ∨ ({ s with cur := cid }).bkptNow = none) →
        ∃ t, exec (.leaveLate cid) s = .next t ∧ (t.ctx cid).lates = (s.ctx cid).lates ++ [r.seq] ∧ (t.ctx cid).bay = none
          ∧ (t.ctx cid).th.pc = (s.ctx cid).th.pc + 4 ∧ t.mem = s.mem ∧ t.cur = s.cur)
      ∧ (∀ src dst r v c, s.msgAt n = some ⟨src, dst, .reply r v c⟩ → r.op ≠ .claim → s.bayOf r = none → s.isLate r = true →
        (∀ f w h x y, r.op ≠ .reserve f w h x y) → (s.core (coreOf r.cid)).atoms = [] →
        ∃ t, exec (.lateValueReturn n delay) s = .next t ∧ (t.ctx r.cid).lates = (s.ctx r.cid).lates.erase r.seq
          ∧ (t.core (coreOf r.cid)).late = (s.core (coreOf r.cid)).late ++ [⟨r.cid, r.seq, r.reg, v⟩] ∧ t.mem = s.mem)
      ∧ (∀ src dst r v i g, s.msgAt n = some ⟨src, dst, .reply r v none⟩ → r.op ≠ .claim → s.bayOf r = some i → r.reg = some g →
        (∀ f w h x y, r.op ≠ .reserve f w h x y) → (s.ctx r.cid).th.sig.en = false → (s.core (coreOf r.cid)).atoms = [] →
        (r.op.takes = true ∨ ({ s with cur := r.cid }).bkptNow = none) → landsLast (s.ctx r.cid).seqNow g (s.ctx r.cid).landing = true →
        ∃ t, exec (.lateValueReturn n delay) s = .next t ∧ (t.ctx r.cid).view g = some v ∧ (t.ctx r.cid).th.pc = (s.ctx r.cid).th.pc + 4
          ∧ (∀ m, m ≠ g → (t.ctx r.cid).view m = (s.ctx r.cid).view m) ∧ t.mem = s.mem)
      ∧ (∀ c q g v rest, (s.core core).late = ⟨c, q, some g, v⟩ :: rest → (s.ctx c).awaited.find g.val = some q →
        (s.ctx c).landing.any (fun e => e.seq == q && e.reg == g && e.val == .late) = false →
        ∃ t, exec (.lateValueLand core) s = .next t ∧ (t.ctx c).th.gpr.get g.val 0 = v ∧ (t.ctx c).awaited.find g.val = none
          ∧ (t.core core).late = rest ∧ t.mem = s.mem)
      ∧ (∀ w, (s.ctx cid).run = .waiting w → (s.ctx cid).bay = none → w ≠ .suspend → w.fixed = false →
        ∃ t, exec (.withdraw cid) s = .next t ∧ (t.ctx cid).run = .parked w ∧ (t.ctx cid).th = (s.ctx cid).th
          ∧ (∀ p ∈ (t.ctx cid).injected, seqGt p.seq ((s.ctx cid).seqNow - 1) = false) ∧ t.mem = s.mem)
      ∧ (∀ w, (s.ctx cid).run = .waiting w ∨ (s.ctx cid).run = .parked w → (s.ctx cid).bay = none → s.waitOver cid w = true →
        w ≠ .suspend → w ≠ .sleep → w ≠ .watch → (∀ k, w ≠ .align k) → (∀ die, (s.ctx cid).run ≠ .parked (.spawn die)) →
        exec (.contextWake cid) s = .next (s.onCtx cid (fun c => { c with run := .runnable })))
      ∧ (∀ die, (s.ctx cid).run = .parked (.spawn die) → s.waitOver cid (.spawn die) = true →
        exec (.contextWake cid) s = .next ((s.onCtx cid (fun c => { c with run := .runnable })).leaveOrders cid))
      ∧ ((s.ctx cid).run = .parked .watch → (s.ctx cid).ready = true →
        ∃ t, exec (.contextWake cid) s = .next t ∧ (t.ctx cid).run = .runnable ∧ t.mem = s.mem
          ∧ ∀ e ∈ (t.core (coreOf cid)).resends, e.1.cid = cid → e.2.parked = false)
      ∧ ((s.ctx cid).run = .parked .sleep → s.sleepOver cid = true →
        ∃ t, exec (.contextWake cid) s = .next t ∧ (t.ctx cid).run = .runnable ∧ (t.ctx cid).th.pc = (s.ctx cid).th.pc + 4
          ∧ (t.ctx cid).ready = false ∧ t.mem = s.mem)
      ∧ (∀ k, (s.ctx cid).run = .waiting (.align k) → (s.alignMet cid = true ∨ (s.ctx cid).parkedAt + k ≤ (s.core (coreOf cid)).cyc) →
        ∃ t, exec (.alignRelease cid) s = .next t ∧ t.ctx cid = { s.ctx cid with run := .runnable, answered := true } ∧ t.mem = s.mem
          ∧ ∀ j ∈ s.siblings cid, (s.ctx j).holdsAlign (s.ctx cid).th.pc = true → (t.ctx j).run = .runnable ∧ (t.ctx j).answered = true)
      ∧ (∀ k, (s.ctx cid).run = .waiting (.align k) → s.alignMet cid = false → (s.core (coreOf cid)).cyc < (s.ctx cid).parkedAt + k →
        exec (.alignRelease cid) s = .next s)
      ∧ (∀ src dst r fc recon, s.msgAt n = some ⟨src, dst, .fault r fc recon⟩ → r.cid < hostCid → s.bayOf r = none → s.parkedOn r = false →
        r.op ≠ .claim → (∀ f w h x y, r.op ≠ .reserve f w h x y) → s.faultedOps r = [r] → (s.ctx r.cid).th.inTrap = false →
        ∃ t, exec (.lateFaultReport n) s = .next t ∧ (t.ctx r.cid).faults = insertFault (faultedOf r fc) (s.ctx r.cid).faults
          ∧ (t.ctx r.cid).th = (s.ctx r.cid).th ∧ t.mem = s.mem))
    ∧ (∀ (s : State) (cid core : Nat),
    (s.atBoundary cid = true →
        let back := fun t : State => if (s.ctx cid).run = .parked .watch then t.resendParked (coreOf cid) cid else t
        (∀ f rest, (s.ctx cid).faults = f :: rest → (s.ctx cid).th.inTrap = false → (s.ctx cid).th.tvec ≠ 0 →
            (ctxOf cid = 0 ∨ bit (s.core (coreOf cid)).deleg f.cause.code.toNat = false) →
            ∃ t, exec (.boundary cid) s = .next t ∧ (t.ctx cid).th.inTrap = true ∧ (t.ctx cid).th.detail = f.addr
              ∧ (t.ctx cid).th.pc = (s.ctx cid).th.tvec.zeroExtend 48 <<< 2 ∧ (t.ctx cid).th.epc = (s.ctx cid).th.pc.extractLsb' 2 46
              ∧ (t.ctx cid).run = .runnable ∧ t.mem = s.mem)
          ∧ (∀ k x rest, (s.ctx cid).lateDue = false → (s.ctx cid).replies = (k, x) :: rest →
            exec (.boundary cid) s = .next (back ((s.onCtx cid (fun c => { c with replies := rest })).deliver cid k .reply x 0)))
          ∧ (∀ k v rest, s.idlePacket cid = true → (s.ctx cid).lateDue = false → (s.ctx cid).replies = [] → (s.ctx cid).asyncDue cid = true →
            (s.ctx cid).asyncs = (k, v) :: rest →
            exec (.boundary cid) s = .next (back ((s.onCtx cid (fun c => { c with asyncs := rest })).deliver cid
              (if k = 0 then .actAbandoned else if k = 1 then .zeroLookahead else .matrixThreshold) .async v 0)))
          ∧ (s.idlePacket cid = true → (s.ctx cid).lateDue = false → (s.ctx cid).replies = [] → (s.ctx cid).asyncDue cid = false → (s.ctx cid).preempt = true →
            s.mayHold cid = true → ∃ t, exec (.boundary cid) s = .next t ∧ (t.ctx cid).run = .waiting .suspend ∧ (t.ctx cid).th = (s.ctx cid).th ∧ t.mem = s.mem))
      ∧ (∀ d rest, s.mayPresent core = true → (s.core core).delegq = d :: rest → d.nent < 32 →
        ∃ t, exec (.delegationPresent core) s = .next t ∧ (t.ctx (core * 16)).th.inTrap = true ∧ (t.ctx (core * 16)).th.detail = d.detail
          ∧ (t.ctx (core * 16)).th.pc = (s.ctx (core * 16)).th.tvec.zeroExtend 48 <<< 2 ∧ (t.ctx (core * 16)).th.cause.toNat % 2 ^ 14
            = 2 ^ 13 + d.nent * 2 ^ 8 + d.cls.code * 2 ^ 6 + d.cause.code.toNat
          ∧ (t.core core).presented = some d ∧ (t.core core).delegq = rest ∧ t.mem = s.mem)
      ∧ (∀ code, (s.ctx (core * 16)).run = .parked (.restart code) →
        ∃ t, exec (.firmwareFault core) s = .next t ∧ (t.ctx (core * 16)).run = .runnable ∧ (t.ctx (core * 16)).th.pc = s.bootFirmware
          ∧ (t.func (s.fnOfCore core)).fwfault = (s.func (s.fnOfCore core)).fwfault ++ [(core, BitVec.ofNat 6 code)]
          ∧ (t.func (s.fnOfCore core)).msix = (s.func (s.fnOfCore core)).msix + 1 ∧ t.mem = s.mem))


/-! ### Messages that reach a core or a home -/

/-- ANSWERS AND NOTICES (R177, R186, R187, R191, R192, R237, R238, R246, R249): a refused request is kept to be sent again after
32 × 2^tries cycles, at most 4,096, its context to park after FERETRY + 1 refusals, and one that is not parked goes out; a
write-combining entry goes out as one write-back; an acknowledged operation leaves UNACK; an orphaned word that its thread still
holds and nobody waits for becomes full; an invalidated sharer drops its copies; a
replica drops its line and tells the home; the host's acknowledgement ends its copy; a wake, and a polled word that changed, set
the ready bit. The core of a replica that sends the notice is log 47, that a polled word is read at once wherever its home is log 58.

MESSAGES ARRIVE IN ORDER (R201, R206, R244, R245, R361): an accepted message takes a hardware entry of the inbox and is
acknowledged, one without room goes back to its sender; refused messages go out again; a free entry takes the ring's oldest; a port
word takes its place in the FIFO; a timed message enters the lane by stamp, source and order and is acknowledged; setting the ring
up, which is a step of its own (log 27), empties it. -/
def Obligations.MessagesAndAnswersArrive : Prop :=
  (∀ (s : State) (n core : Nat) (delay : BitVec 16),
    (∀ src dst r, s.msgAt n = some ⟨src, dst, .refuse r⟩ → (s.ctx r.cid).th.tid = r.tid →
        (s.core (coreOf r.cid)).resends = [(r, ⟨src, 0, false, false⟩)] →
        ∃ t, exec (.requestRefused n) s = .next t ∧ t.mem = s.mem ∧ (t.core (coreOf r.cid)).resends =
          [({ r with tries := r.tries + 1 },
            ⟨src, min 4096 (32 * 2 ^ r.tries), decide ((s.ctx r.cid).th.feretry.toNat < r.tries + 1), true⟩)]
          ∧ ((s.ctx r.cid).th.feretry.toNat < r.tries + 1 → (t.ctx r.cid).parkDue = some .watch))
      ∧ (∀ r dst d rest, (s.core core).resends = (r, ⟨dst, d, false, true⟩) :: rest →
        ∃ t, exec (.requestResend core) s = .next t ∧ (t.core core).resends = rest ∧ t.net = s.net ++ [⟨core, dst, .req r⟩] ∧ t.mem = s.mem)
      ∧ (∀ e, (s.core core).wcb = [e] → coreOf e.cid = core →
        ∃ t, exec (.wcbSend core) s = .next t ∧ (t.core core).wcb = [] ∧ t.mem = s.mem
          ∧ t.net = s.net ++ [⟨core, e.home, .req { e.req with key := e.line, op := .store e.bytes e.count }⟩])
      ∧ (∀ src dst r k c, s.msgAt n = some ⟨src, dst, .ack r k c⟩ → (∀ bs m, r.op ≠ .store bs m) → r.op ≠ .prefetch →
        r.cid < hostCid → s.asker r = true → (s.core (coreOf r.cid)).atoms = [] → r ∈ (s.ctx r.cid).posted →
        ∃ t, exec (.acknowledgementArrival n delay) s = .next t ∧ (t.ctx r.cid).unack + 1 = (s.ctx r.cid).unack ∧ t.mem = s.mem
          ∧ (t.ctx r.cid).th = (s.ctx r.cid).th)
      ∧ (∀ src h k tid, s.msgAt n = some ⟨src, h, .orphan k tid⟩ → (s.core h).reserved.find k = some ⟨false, some tid⟩ →
        (∀ w ∈ (s.core h).waits, w.key ≠ k) →
        ∃ t, exec (.orphanMessage n) s = .next t ∧ t.full h k = true ∧ t.mem = s.mem)
      ∧ (∀ src h k tid e, s.msgAt n = some ⟨src, h, .orphan k tid⟩ → (s.core h).reserved.find k = some e →
        (e.atom = true ∨ e.holder ≠ some tid) → exec (.orphanMessage n) s = .next { s with net := s.net.eraseIdx n })
      ∧ (∀ src tgt line owner code window, s.msgAt n = some ⟨src, tgt, .inval line owner code window⟩ → isReplica code = false →
        (s.core owner).helds = [] → s.agentReqs = [] → (s.core owner).atoms = [] →
        ∃ t, exec (.invalidation n) s = .next t ∧ t.mem = s.mem ∧ (∀ x ∈ (t.core code).l1, (s.phys x.key).map lineOf ≠ some line)
          ∧ (∀ d, (t.core owner).dir.find line = some d → code ∉ d.sharers))
      ∧ (∀ die line, (s.replica die line).isSome = true →
        ∃ t, exec (.replicaDrop die line) s = .next t ∧ t.replica die line = none ∧ t.mem = s.mem
          ∧ (s.cores.any (fun e => (dirOf e.2 line).sharers.contains (replicaCode die)) = true →
            ∃ h, t.net = s.net ++ [⟨replicaCore die line, h, .drop line die⟩]))
      ∧ (∀ src h line die d, s.msgAt n = some ⟨src, h, .drop line die⟩ → s.replica die line = none → (s.core h).dir.find line = some d →
        (s.core h).helds = [] → s.agentReqs = [] →
        ∃ t, exec (.dropNotice n) s = .next t ∧ t.mem = s.mem
          ∧ (t.core h).dir.find line = some { d with sharers := d.sharers.filter (fun x => x != replicaCode die) })
      ∧ (∀ src dst line, s.msgAt n = some ⟨src, dst, .backInval line⟩ → (s.core src).helds = [] → s.agentReqs = [] →
        ∃ t, exec (.backInvalidationAck n) s = .next t ∧ t.mem = s.mem ∧ line ∉ t.hostLines ∧ t.net = s.net.eraseIdx n)
      ∧ (∀ src dst cid, s.msgAt n = some ⟨src, dst, .wake cid⟩ →
        exec (.watchWake n) s = .next ({ s with net := s.net.eraseIdx n }.onCtx cid (fun c => { c with ready := true })))
      ∧ (∀ k key v, k < 16 → (s.ctx (core * 16 + k)).polled = [(key, v)] → s.peek key ≠ v →
        ∃ t, exec (.polledWatch core) s = .next t ∧ (t.ctx (core * 16 + k)).ready = true
          ∧ (t.ctx (core * 16 + k)).polled = [(key, s.peek key)] ∧ t.mem = s.mem))
    ∧ ((∀ (s : State) (n core : Nat),
    (∀ src dst r ctx launch m, s.msgAt n = some ⟨src, dst, .send r ctx launch m⟩ → s.severed src dst = false → r.cid < hostCid →
        (s.core dst).ringUsed = 0 → (s.core dst).ib.length < 64 →
        ∃ t, exec (.messageAccept n) s = .next t ∧ (t.core dst).ib = (s.core dst).ib ++ [⟨ctx, m⟩] ∧ t.mem = s.mem
          ∧ t.net = s.net.eraseIdx n ++ [⟨dst, src, .ack r 1 none⟩] ∧ (t.core dst).recv.get launch 0 = (s.core dst).recv.get launch 0 + 1)
      ∧ (∀ src dst r ctx launch m, s.msgAt n = some ⟨src, dst, .send r ctx launch m⟩ → r.cid < hostCid →
        s.ibAccept dst ⟨ctx, m⟩ = none →
        exec (.messageAccept n) s = .next (s.pullBack r dst) ∧ (s.pullBack r dst).mem = s.mem
          ∧ (∃ e, e ∈ ((s.pullBack r dst).core (coreOf r.cid)).msgResends ∧ e.r.cid = r.cid ∧ e.dst = dst ∧ e.msg = m))
      ∧ (∀ e, (s.core core).msgResends = [e] → e.timed = none →
        ∃ t, exec (.messageResend core) s = .next t ∧ (t.core core).msgResends = [] ∧ t.mem = s.mem
          ∧ t.net = s.net ++ [⟨core, e.dst, .send e.r e.ctx e.launch e.msg⟩])
      ∧ (∀ off rest m t, (s.core core).ib.length < 64 → s.ringPending core (fun _ => true) = off :: rest → s.takeRing core off = some (m, t) →
        exec (.inboxRefill core) s = .next (t.onCore core (fun c => { c with ib := c.ib ++ [m] })))
      ∧ (∀ src dst cid d v, s.msgAt n = some ⟨src, dst, .port cid d v⟩ →
        exec (.portWordArrive n) s = .next ({ s with net := s.net.eraseIdx n }.setFifo cid d
          ⟨(s.fifo cid d).words ++ [v], (s.fifo cid d).held - 1⟩))
      ∧ (∀ src dst r launch m t, s.msgAt n = some ⟨src, dst, .timed r launch m⟩ → s.severed src dst = false → (s.core dst).lt = some t →
        t.launch = launch → t.timeEnded = false → t.lane.length < 256 →
        ∃ u t', exec (.timedMessageArrive n) s = .next u ∧ (u.core dst).lt = some t' ∧ t'.lane = insertTimed m t.lane
          ∧ t'.vt = t.vt ∧ t'.ins = t.ins ∧ t'.waiters = t.waiters
          ∧ u.net = s.net.eraseIdx n ++ [⟨dst, src, .ack r 1 none⟩] ∧ u.mem = s.mem)
      ∧ (∀ size v, s.ringEmpty core = true →
        ∃ t, exec (.inboxRingSet core size v) s = .next t ∧ (t.core core).ringUsed = 0 ∧ (t.core core).ringW = 0 ∧ (t.core core).ringO = 0
          ∧ (size = true → (t.core core).insize = v.extractLsb' 3 15 ∧ (t.core core).inoff = (s.core core).inoff)
          ∧ (size = false → (t.core core).inoff = v.extractLsb' 3 16 ∧ (t.core core).insize = (s.core core).insize) ∧ t.mem = s.mem))
    ∧ ∀ (m : Timed) (lane : List Timed), (insertTimed m lane).Perm (m :: lane)
      ∧ (lane.Pairwise (fun a b => timedBefore b a = false) → (insertTimed m lane).Pairwise (fun a b => timedBefore b a = false)))


/-! ### The schedulers -/

/-- LAUNCHES AND TASKS (R38 to R44, R51, R59, R60, R229, R378): a submitted block is refused with its status in the completion record, or
becomes a launch; the generator queues the launch's tasks one by one; queues age, are considered by effective priority and then by
order, bind their first task to an offered context and give half of what may go to a thief; a quiet launch ends, and says so in its
record once its dies have charged it (R403); gang stops reach every core of the partition, and a cancelled launch ends and leaves no
thread. When a launch takes up the banks retained for it is log 94; that a steal that brings tasks, and the end of the backoff, set
the count of failed steals to 0 is log 29. -/
def Obligations.LaunchesRunAndEnd : Prop :=
  (∀ ts, (dispenseOrder ts).Perm ts ∧ (dispenseOrder ts).Pairwise (fun a b => ¬ (min 3 (a.prio + a.age) < min 3 (b.prio + b.age)
      ∨ (min 3 (a.prio + a.age) = min 3 (b.prio + b.age) ∧ b.born < a.born))))
    ∧ ∀ (s : State) (part die core n : Nat),
      (∀ b rest, (s.part part).submitted = b :: rest → let s' := s.setPart part { s.part part with submitted := rest }
          (s'.blockStatus b ≠ 0 → ∃ t, exec (.launchAccept part) s = .next t ∧ (t.part part).submitted = rest ∧ t.launches = s.launches
              ∧ (∀ k, s.MemOk → s.agentKey b.view (b.addr + 0xC0) true = some k → padKey k = false → b.addr.toNat % 256 = 0 →
                s.agentFree agentCid k 8 = true → (t.mem.word k).toNat = b.num % 2 ^ 32 * 2 ^ 32 + s'.blockStatus b))
            ∧ (s'.blockStatus b = 0 → ∃ t l, exec (.launchAccept part) s = .next t ∧ (t.part part).submitted = rest
              ∧ t.launches = s.launches ++ [l] ∧ l.num = b.part * 2 ^ 32 + b.num % 2 ^ 32 ∧ l.part = b.part ∧ l.gen = 0 ∧ l.ended = false
              ∧ t.mem = s.mem ∧ ∀ c, (s.core c).retained = some l.num → (s.core c).powered = false → (t.core c).powering = true))
        ∧ (∀ launch l, s.launch launch = some l → l.gen < l.total → s.spawnOpen (l.task l.gen).1 l.num = true →
          ∃ t, exec (.taskGenerate launch) s = .next t ∧ t.mem = s.mem
            ∧ (t.die (l.task l.gen).1).queue = (s.die (l.task l.gen).1).queue ++ [{ (l.task l.gen).2 with born := s.stamp }]
            ∧ t.launches = s.launches.map (fun x => if x.num == l.num && !x.ended then { x with gen := x.gen + 1, tasks := x.tasks + 1 } else x))
        ∧ (∀ k, exec (.taskAge die k) s = .next (s.onDie die (fun d => { d with queue := d.queue.modify k (fun t =>
          if 4096 ≤ t.spent then { t with age := t.age + 1, spent := t.spent - 4096 } else t) })))
        ∧ (∀ cluster task cid l, s.nextPost cluster = none →
          (dispenseOrder (s.die (cluster / 48)).queue).find? (fun t => (s.target cluster t).isSome) = some task →
          s.target cluster task = some cid → s.launch task.launch = some l → (s.ctx cid).run = .vacant → (s.core (coreOf cid)).powered = true →
          ∃ t, exec (.taskBind cluster) s = .next t ∧ (t.die (cluster / 48)).queue = (s.die (cluster / 48)).queue.erase task
            ∧ (t.ctx cid).run = .runnable ∧ (t.ctx cid).th.pc = task.entry ∧ (t.ctx cid).th.wid = task.wid ∧ (t.ctx cid).th.launch = l.num
            ∧ (∀ j, j < 6 → (t.ctx cid).th.gpr.get j 0 = task.args.getD j 0) ∧ (t.ctx cid).th.comp = false
            ∧ (t.ctx cid).th.gpr.get 15 0 =
              (if l.stksize = 0 then 0 else l.stkbase + BitVec.ofNat 64 ((cid + 1) * (l.stksize / 65536))) ∧ t.mem = s.mem)
        ∧ ((s.die die).stealOut = false → (s.die die).stealWait = false → s.victims die ≠ [] → s.someOffered die = true → s.noneBindable die = true →
          ∃ t v, exec (.stealRequest die) s = .next t ∧ v ∈ s.victims die ∧ (t.die die).stealOut = true ∧ t.mem = s.mem
            ∧ t.net = s.net ++ [⟨0x1000 + die, 0x1000 + v, .steal die (s.queueRoom die)⟩])
        ∧ (∀ src thief places, s.msgAt n = some ⟨src, 0x1000 + die, .steal thief places⟩ →
          ∃ t ts, exec (.stealAnswer n) s = .next t ∧ t.net = s.net.eraseIdx n ++ [⟨0x1000 + die, src, .stolen thief ts⟩]
            ∧ (t.die die).queue = (s.die die).queue.filter (fun x => !ts.contains x) ∧ ts.length ≤ places
            ∧ ts.length ≤ ((s.die die).queue.filter (fun x => x.anyDie)).length
            ∧ (∀ x ∈ ts, x ∈ (s.die die).queue ∧ x.anyDie = true ∧ ∃ l, s.launch x.launch = some l ∧ l.dies.getLsbD thief = true) ∧ t.mem = s.mem)
        ∧ (∀ src dst thief ts, s.msgAt n = some ⟨src, dst, .stolen thief ts⟩ →
          ∃ t, exec (.stolenTasksArrival n) s = .next t ∧ (t.die thief).queue = (s.die thief).queue ++ ts ∧ (t.die thief).stealOut = false
            ∧ (t.die thief).stealFail = (if ts = [] then (s.die thief).stealFail + 1 else 0) ∧ t.mem = s.mem
            ∧ ((t.die thief).stealWait = true ↔ (s.die thief).stealWait = true ∨ (ts = [] ∧ 2 ≤ (s.die thief).stealFail)))
        ∧ exec (.stealBackoff die) s = .next (s.onDie die (fun d => if d.stealWait then { d with stealWait := false, stealFail := 0 } else d))
        ∧ (∀ src task, s.msgAt n = some ⟨src, 0x1000 + die, .spawn task⟩ →
          ∃ t, exec (.spawnPushArrival n) s = .next t ∧ (t.die die).queue = (s.die die).queue ++ [{ task with born := s.stamp }]
            ∧ (t.die die).recv.get task.launch 0 = (s.die die).recv.get task.launch 0 + 1 ∧ t.mem = s.mem)
        ∧ (∀ l, s.launches.filter (fun l => l.part == part && !l.ended) = [l] →
          (s.quiet l = true → s.sumSent l = s.sumRecv l → l.lastSent = s.sumSent l → l.lastRecv = s.sumRecv l →
              ∃ t, exec (.launchSweep part) s = .next t ∧ (∀ x ∈ t.launches, x.num = l.num → x.ended = true)
                ∧ { l with ended := true, final := some ⟨if l.killed then 2 else 1, s.partTime part, s.sumSent l, diesOfPart part⟩ } ∈ t.launches)
            ∧ (s.quiet l = false → exec (.launchSweep part) s = .next (s.onLaunch l.num (fun x =>
              { x with lastSent := s.sumSent l, lastRecv := s.sumRecv l })))
            ∧ (∃ t, exec (.gangCancel part) s = .next t ∧ (∀ x ∈ t.launches, x.num = l.num → x.ended = true)
              ∧ ∀ cid, ctxOf cid ≠ 0 → (t.ctx cid).ofLaunch l.num = false))
        ∧ (∀ l f k, s.launches.filter (fun l => l.final.isSome) = [l] → l.final = some f → f.dies = [die] → (s.die die).intervals < s.now.toNat / 1000 →
          s.MemOk → s.agentKey l.blockView (l.block + 0xC0) true = some k → padKey k = false → l.block.toNat % 256 = 0 →
          s.agentFree agentCid k 8 = true →
          ∃ t, exec (.energyInterval die) s = .next t ∧ (t.mem.word k).toNat = (l.num % 2 ^ 32 * 2 ^ 32 + f.status) % 2 ^ 64)
        ∧ exec (.retentionRelease core) s = .next (s.onCore core (fun c => { c with retained := none }))
        ∧ ((s.cluster (clusterOf core)).stopped = false → ∃ t, exec (.gangStopArrive core) s = .next t ∧ (t.core core).gangStopped = true
          ∧ (t.core core).dbg.record = s.gangRecord core ∧ t.mem = s.mem)
        ∧ ((s.cluster (clusterOf core)).stopped = true →
          exec (.gangStopArrive core) s = .next (s.onCore core (fun c => { c with gangDue := true })))
        ∧ exec (.gangStop part) s = .next { s with agenda := (coresOfPart part).map (fun c => .event (.gangStopArrive c)) ++ s.agenda }
        ∧ (∃ t, exec (.gangRelease part) s = .next t ∧ t.mem = s.mem
          ∧ ∀ c, (dieOf c ∈ diesOfPart part → (t.core c).gangStopped = false) ∧ (dieOf c ∉ diesOfPart part → t.core c = s.core c))

/-- THREADS COME AND GO (R45, R50, R53, R54, R57, R58, R226 to R228, R230): banks come up with their reserved threads running and go down
with their contents lost and their waiters faulted; a pre-empted thread is held with its registers, a rescued spawner is suspended
once its counts are zero; a departing thread travels in a message, an arriving one takes a vacant context or a place in the order of
R53, a refused one goes back to its core's cache and out again; a spilled thread's record has R227's words and gives the thread back; a
killed thread leaves its context killed, its launch counting it and context 0 told. What of a thread the record has no place for is
log 89; that later migrations of the core are not held back behind a refused one is log 90, and what may take the room that a move
is for log 91. -/
def Obligations.ThreadsComeAndGo : Prop :=
  ∀ (s : State) (cid core n die : Nat),
    ((s.core core).powering = true →
        ∃ t, exec (.bankPowerUpDone core) s = .next t ∧ (t.core core).powered = true ∧ (t.core core).powering = false ∧ t.mem = s.mem
          ∧ ∀ k th, 0 < k → k < 16 → (s.ctx (core * 16 + k)).reserved = some th → (t.ctx (core * 16 + k)).run = .runnable
            ∧ (t.ctx (core * 16 + k)).th = th ∧ (t.ctx (core * 16 + k)).reserved = none)
      ∧ (s.mayPowerDown core = true →
        ∃ t, exec (.bankPowerDown core) s = .next t ∧ (t.core core).powered = false
          ∧ (∀ k, t.mem.read k = if inPad core k then Memory.blank else s.mem.read k)
          ∧ (∀ w ∈ (s.core core).waits, (⟨core, coreOf w.req.cid, .fault w.req 1 false⟩ : Msg) ∈ t.net)
          ∧ (t.core core).waits = [] ∧ (t.core core).watches = [])
      ∧ ((s.ctx cid).run = .waiting .suspend ∨ (s.ctx cid).run = .parked .suspend → (s.ctx cid).unack = 0 → (s.ctx cid).outld = 0 →
        (s.ctx cid).lateDue = false → s.lateComing cid = false → (s.ctx cid).waves = [] → (s.core (coreOf cid)).cacheUsed < 32 → s.oldestArrival (coreOf cid) = none →
        s.oldestRescued (coreOf cid) = none →
        ∃ t p, exec (.preemptSuspend cid) s = .next t ∧ (t.ctx cid).run = .vacant ∧ p ∈ (t.core (coreOf cid)).cache ∧ p.why = .suspended
          ∧ p.th.pc = (s.ctx cid).th.pc ∧ p.th.launch = (s.ctx cid).th.launch ∧ p.seq = (s.ctx cid).seq
          ∧ p.faults = (s.ctx cid).faults
          ∧ (∀ r v, (s.ctx cid).view r = some v → p.th.gpr.get r.val 0 = v) ∧ t.mem = s.mem)
      ∧ (∀ l : List (Nat × Nat), (l.foldl (fun l k => insertSpawner k l) []).Perm l
        ∧ (l.foldl (fun l k => insertSpawner k l) []).Pairwise (fun a b => a.1 ≤ b.1))
      ∧ (∀ c, s.parkOrder.find? (fun c => s.rescuable die c) = some c →
        exec (.spawnerRescue die) s = .next (if s.countsZero c then s.suspend c .rescued else s)
          ∧ ((s.core (coreOf c)).cacheUsed < 32 → (s.suspend c .rescued).mem = s.mem))
      ∧ (∀ tgt mask whole w i, (s.ctx cid).run = .waiting (.depart tgt mask whole false) → s.mayDepart cid = true →
        s.fetchWord cid (s.ctx cid).th.pc = some w → decode w = .ok i → (whole = true ∨ (s.ctx cid).th.engineLive = false) →
        ∃ t p, exec (.threadDepart cid) s = .next t ∧ (⟨coreOf cid, tgt, .migrate p⟩ : Msg) ∈ t.net ∧ p.th.pc = (s.ctx cid).th.pc
          ∧ p.th.launch = (s.ctx cid).th.launch ∧ (t.ctx cid).run ≠ (s.ctx cid).run ∧ t.mem = s.mem)
      ∧ (∀ src dst p, s.msgAt n = some ⟨src, dst, .migrate p⟩ → s.severed src dst = false →
        (∀ c, s.oldestArrival dst = none → s.vacantCtx dst = some c → (s.core dst).powered = true → p.origin < 65536 →
            ∃ t, exec (.migrationArrival n) s = .next t ∧ (t.ctx c).run = .runnable ∧ (t.ctx c).th = p.th
              ∧ (t.core dst).recv.get p.th.launch 0 = (s.core dst).recv.get p.th.launch 0 + 1 ∧ t.mem = s.mem)
          ∧ (s.vacantCtx dst = none → s.spilled dst = [] → (∀ x ∈ (s.core dst).cache, x.why ≠ .arrival) → (s.core dst).arrivals.length < 8 →
            ∃ t, exec (.migrationArrival n) s = .next t ∧ (t.core dst).arrivals = (s.core dst).arrivals ++ [{ p with why := .arrival }]
              ∧ t.mem = s.mem)
          ∧ (s.vacantCtx dst = none → s.spilled dst = [] → (s.core dst).arrivals.length = 8 → (s.core dst).cacheUsed < 32 →
            ∃ t, exec (.migrationArrival n) s = .next t ∧ (⟨p.th, .arrival, p.origin, p.seq, p.asyncs, p.faults, p.replies⟩ : Parked)
              ∈ (t.core dst).cache ∧ t.mem = s.mem)
          ∧ (s.vacantCtx dst = none → (s.core dst).arrivals.length = 8 → 32 ≤ (s.core dst).cacheUsed →
            32768 ≤ (s.die (dieOf dst)).spill.length → p.why = .arrival →
            ∃ t, exec (.migrationArrival n) s = .next t ∧ { p with why := .resend dst 256 } ∈ (t.core src).cache ∧ t.mem = s.mem
              ∧ ((t.core src).powered = true ∨ (t.core src).powering = true))
          ∧ (s.vacantCtx dst = none → (s.core dst).arrivals.length = 8 → 32 ≤ (s.core dst).cacheUsed →
            (s.die (dieOf dst)).spill.length < 32768 → p.th.engineLive = false →
            ∃ t, exec (.migrationArrival n) s = .next t ∧ t.mem = s.mem
              ∧ (t.die (dieOf dst)).spill = (s.die (dieOf dst)).spill ++ [Spill.of dst { p with why := .arrival }]))
      ∧ (∀ p : Parked, let ws := (Spill.of core p).record; let q := (Spill.of core p).parked
        ws.length = 256 ∧ ws.getD 0 0 = p.th.pc.zeroExtend 64
          ∧ ws.getD 1 0 = BitVec.ofNat 64 (p.th.launch % 2 ^ 32 * 2 ^ 32 + p.why.place * 16 + p.why.state)
          ∧ (∀ r, r < 16 → ws.getD (2 + r) 0 = p.th.gpr.get r 0 ∧ q.th.gpr.get r 0 = p.th.gpr.get r 0)
          ∧ q.th.pc = p.th.pc ∧ q.th.launch = p.th.launch ∧ q.th.tvec = p.th.tvec ∧ q.th.epc = p.th.epc ∧ q.th.cause = p.th.cause
          ∧ q.th.detail = p.th.detail ∧ q.th.inTrap = p.th.inTrap ∧ q.th.cq = p.th.cq ∧ q.th.mq = p.th.mq ∧ q.th.vq = p.th.vq
          ∧ q.th.slot = p.th.slot ∧ q.th.resv = p.th.resv ∧ q.th.score = p.th.score ∧ q.seq = p.seq ∧ q.faults = p.faults)
      ∧ (∀ p rest dst d, (s.core core).cache = p :: rest → p.why = .resend dst d →
        exec (.migrationResend core) s = .next ((s.onCore core (fun c => { c with cache := rest, inflight := c.inflight + 1 })).send core dst (.migrate p)))
      ∧ (∀ p, (s.core core).arrivals.length < 8 → (s.core core).cache.find? (fun p => p.why == .arrival) = some p →
        exec (.arrivalMove core) s = .next (s.onCore core (fun c => { c with cache := c.cache.erase p, arrivals := c.arrivals ++ [p] })))
      ∧ (∀ what, (s.ctx cid).holdsThread = true → ctxOf cid ≠ 0 → (s.ctx cid).th.routine = none →
        ((s.core (coreOf cid)).delegq.filter (fun d => d.src == none)).length < 16 →
        ∃ t, exec (.containmentKill cid what) s = .next t ∧ (t.ctx cid).run = .killed ∧ (t.ctx cid).th.resv = [] ∧ t.mem = s.mem
          ∧ (t.core (coreOf cid)).delegq = (s.core (coreOf cid)).delegq.filter (fun d => d.src != some (ctxOf cid))
            ++ [⟨none, .contained, .async, 0, BitVec.ofNat 64 (ctxOf cid + what.toNat * 16)⟩]
          ∧ (∀ l, s.launch (s.ctx cid).th.launch = some l → ∃ l' ∈ t.launches, l'.num = l.num ∧ l'.kills = l.kills + 1 ∧ l'.killed = true))


/-! ### Matrix and copy sidings -/

/-- MATRIX INSTRUCTIONS (R55, R282, R314 to R323): without X the thread travels to a core that has it, else EXT_ABSENT; MCFG, MWL and MPRI
set the configuration, the plane list and the priority; MMA, MACP and MCLR capture theirs and enter the queue of the priority,
or wait for a place; MSTAGE puts such a command into the slot; MCAN cancels the context's commands; each debits its class's cost. The
DETAIL of an MSTAGE, the operand that fails its command's check or, with a full slot, a, is log 26. -/
def Obligations.MatrixInstructions : Prop :=
  ∀ (a b : Reg) (e p ds dt : BitVec 2) (o : BitVec 3) (s : State),
    let pays := s.unbudgeted s.cur = true ∨ (s.core s.here).ecost.toNat / 2 ^ (16 * e.toNat) % 2 ^ 16 ≤ s.th.ebudget.toNat
    let m := s.th.mat
    let es := if m.fmt = 2 then 2 else 1
    (hasX s.here = false → ∀ i ∈ [Instr.mcfg a e, .mwl a b e, .mma a b e, .macp a b e, .mclr a e, .mstage a b e, .mpri e p, .mcan a e,
        .cgoc a b e ds dt o],
        (∀ w, encode i = some w → s.xTarget s.here = none → exec i s = .next (s.trap .extAbsent (w.zeroExtend 64)))
          ∧ (∀ c, s.xTarget s.here = some c → s.flushAll s.cur = s → s.mayDepart s.cur = true →
            exec i s = .next ((s.wave s.cur (s.seqNow - 1) s.th.pc).depart s.cur c 0xFFFF true)))
    ∧ (hasX s.here = true → ∀ (u : State) (x y : Word),
      (s.operands a .zr .zr = .ok u x y →
        (pays → s.Signed (.mcfg a e) false → x.toNat < 16 → x.toNat % 4 ≠ 3 → (x.toNat / 4 ≠ 0 → x.toNat % 4 = 0) →
            exec (.mcfg a e) s = .next (s.ended (.mcfg a e) ((u.debit (s.costOf e)).withTh (fun t => { t with mat := { t.mat with
              fmt := x.toNat % 4, sa := x.getLsbD 2, sw := x.getLsbD 3, live := true } }))))
          ∧ ((16 ≤ x.toNat ∨ x.toNat % 4 = 3 ∨ (x.toNat / 4 % 4 ≠ 0 ∧ x.toNat % 4 ≠ 0)) → exec (.mcfg a e) s = .next (s.trap .badAddress x))
          ∧ (2 ≤ x.toNat → exec (.mcan a e) s = .next (s.trap .badAddress x))
          ∧ (pays → s.Signed (.mcan a e) false → x.toNat < 2 → u.cur = s.cur → s.cur < 65536 → u.th.saved = false →
            ∃ t, exec (.mcan a e) s = .next t ∧ t.th.pc = s.th.pc + 4 ∧ t.mem = u.mem ∧ t.th.mat.slot = none
              ∧ (x.toNat = 1 → t.th.mat.planes = [])
              ∧ (∀ c ∈ (t.core s.here).mat ++ (t.core s.here).suspended ++ (t.core s.here).staged, c.cid ≠ s.cur)
              ∧ (∀ r, (t.core s.here).running = some r → r.cmd.cid = s.cur → r.finished = false → r.cmd.status = 1)
              ∧ (∀ c ∈ (u.core s.here).mat ++ (u.core s.here).suspended ++ (u.core s.here).staged, c.cid = s.cur →
                ({ c with status := 1 } : MCmd).record ∈ t.th.mq)))
      ∧ (pays → s.Signed (.mpri e p) false →
        exec (.mpri e p) s = .next (s.ended (.mpri e p) ((s.debit (s.costOf e)).withTh (fun t => { t with mat := { t.mat with
          prio := p.toNat, live := true } }))))
      ∧ (s.operands a b .zr = .ok u x y →
        (x.toNat % 64 ≠ 0 → exec (.mwl a b e) s = .next (s.trap .misaligned x))
          ∧ (x.toNat % 64 = 0 → (¬ padBytes s.here x (4096 * es) ∨ 16 ≤ m.planes.length) → exec (.mwl a b e) s = .next (s.trap .badAddress x))
          ∧ (pays → s.Signed (.mwl a b e) false → x.toNat % 64 = 0 → padBytes s.here x (4096 * es) → m.planes.length < 16 →
            (m.sw = true → padBytes s.here y 128) → (m.sw = false → y = 0) →
            exec (.mwl a b e) s = .next (s.ended (.mwl a b e) ((u.debit (s.costOf e)).withTh (fun t => { t with mat := { t.mat with
              planes := t.mat.planes ++ [(m.fmt, m.sw, x, y)], live := true } }))))
          ∧ (∀ q ∈ [(Instr.mma a b e, 2), (.macp a b e, 3)],
            (y.toNat % 16 ≠ 0 → exec q.1 s = .next (s.trap .misaligned y))
            ∧ (y.toNat % 16 = 0 → (64 < x.toNat / 2 ^ 6 % 2 ^ 6 + x.toNat % 2 ^ 6 + 1
                ∨ (s.core s.here).accown.toNat / 16 ^ (x.toNat / 2 ^ 12 % 4) % 16 ≠ ctxOf s.cur ∨ ctxOf s.cur = 0) →
              exec q.1 s = .next (s.trap .badAddress x))
            ∧ (s.mxCheck q.2 x y = none → pays → s.Signed q.1 false → ((s.core s.here).mat.filter (fun c => c.prio == m.prio)).length < 8 →
              (∀ c ∈ (s.core s.here).staged, c.prio ≠ m.prio) →
              exec q.1 s = .next (s.ended q.1 (((u.debit (s.costOf e)).mxPop q.2 x).onCore s.here (fun c =>
                { c with mat := c.mat ++ [{ s.mxCapture q.2 x y with age := c.cyc }] }))))
            ∧ (s.mxCheck q.2 x y = none → 8 ≤ ((s.core s.here).mat.filter (fun c => c.prio == m.prio)).length →
              exec q.1 s = .next (s.withMe (fun c => { c with run := .waiting (.mspace m.prio) }))))
          ∧ (∀ c, c = x.toNat / 2 ^ 60 → 2 ≤ c → c ≤ 4 → m.slot = none → s.mxCheck c (BitVec.ofNat 64 (x.toNat % 2 ^ 60)) y = none → pays →
            s.Signed (.mstage a b e) false →
            exec (.mstage a b e) s = .next (s.ended (.mstage a b e) (((u.debit (s.costOf e)).mxPop c (BitVec.ofNat 64 (x.toNat % 2 ^ 60))).withTh
              (fun t => { t with mat := { t.mat with slot := some (s.mxCapture c (BitVec.ofNat 64 (x.toNat % 2 ^ 60)) y), live := true } }))))
          ∧ ((m.slot.isSome = true ∨ x.toNat / 2 ^ 60 < 2 ∨ 4 < x.toNat / 2 ^ 60) → exec (.mstage a b e) s = .next (s.trap .badAddress x))
          ∧ (∀ c v, m.slot = none → 2 ≤ x.toNat / 2 ^ 60 → x.toNat / 2 ^ 60 ≤ 4 →
            s.mxCheck (x.toNat / 2 ^ 60) (BitVec.ofNat 64 (x.toNat % 2 ^ 60)) y = some (c, v) →
            exec (.mstage a b e) s = .next (s.trap .badAddress v)))
      ∧ (s.operands a .zr .zr = .ok u x y → pays → s.Signed (.mclr a e) false → x.toNat < 2 ^ 14 →
        x.toNat / 2 ^ 6 % 2 ^ 6 + x.toNat % 2 ^ 6 + 1 ≤ 64 → ctxOf s.cur ≠ 0 →
        (s.core s.here).accown.toNat / 16 ^ (x.toNat / 2 ^ 12 % 4) % 16 = ctxOf s.cur →
        ((s.core s.here).mat.filter (fun c => c.prio == m.prio)).length < 8 → (∀ c ∈ (s.core s.here).staged, c.prio ≠ m.prio) →
        exec (.mclr a e) s = .next (s.ended (.mclr a e) (((u.debit (s.costOf e)).mxPop 4 x).onCore s.here (fun c =>
          { c with mat := c.mat ++ [{ s.mxCapture 4 x y with age := c.cyc }] }))))
      ∧ (∀ code, let c := s.mxCapture code x y
        (c.cid, c.seq, c.code, c.a, c.b, c.fmt, c.sa, c.sw, c.prio, c.k) = (s.cur, s.seqNow, code, x, y, m.fmt, m.sa, m.sw, m.prio, 0)
          ∧ (code = 2 → c.planes = (m.planes.take (x.toNat / 2 ^ 14 % 2 ^ 4 + 1)).map (fun q => q.2.2))
          ∧ (s.mxPop code x).mem = s.mem
          ∧ (s.mxPop code x).th.mat.planes = if code = 2 ∧ x.getLsbD 19 = true then m.planes.drop (x.toNat / 2 ^ 14 % 2 ^ 4 + 1) else m.planes))

/-- COPY INSTRUCTIONS (R302 to R306, R312): CSETB, CSETD and CSETS set parts of a descriptor; CGO, and CGOC with its staged command, take
copies of two descriptors into the siding when the checks pass, or wait for a place; CCAN cancels the context's running copies: one with
no piece in flight is gone with its record, another starts no further piece, and a staged command is dropped; an element's address
follows the strides of its indices. The DETAIL a of CSETD and CSETS of an unset descriptor is log 26. -/
def Obligations.CopyInstructions : Prop :=
  ∀ (a b : Reg) (e n ds dt : BitVec 2) (o : BitVec 3) (f k : BitVec 4) (s u : State) (x y : Word),
    let pays := s.unbudgeted s.cur = true ∨ (s.core s.here).ecost.toNat / 2 ^ (16 * e.toNat) % 2 ^ 16 ≤ s.th.ebudget.toNat
    let set (d : Desc) : State := (u.debit (s.costOf e)).withTh (fun t => { t with descs := t.descs.set n.toNat d })
    (s.operands a b .zr = .ok u x y →
      (pays → s.Signed (.csetb a b e n f) false → (y = 0 ∨ (2 ^ 63 ≤ y.toNat ∧ y.toNat < 2 ^ 63 + 2 ^ 17)) →
          exec (.csetb a b e n f) s = .next (s.ended (.csetb a b e n f) (set ⟨x, BitVec.ofNat 17 (y.toNat % 2 ^ 17), f.toNat, [], [], none, 0, none⟩)))
        ∧ (y ≠ 0 → (y.toNat < 2 ^ 63 ∨ 2 ^ 63 + 2 ^ 17 ≤ y.toNat) → exec (.csetb a b e n f) s = .next (s.trap .badAddress y))
        ∧ (s.th.descs.find n.toNat = none ∨ x.toNat = 0 ∨ 2 ^ 32 ≤ x.toNat → exec (.csetd a b e n k) s = .next (s.trap .badAddress x))
        ∧ (s.th.descs.find n.toNat = none → exec (.csetsScale a b e n) s = .next (s.trap .badAddress x))
        ∧ (∀ d, s.th.descs.find n.toNat = some d →
          (pays → s.Signed (.csetd a b e n k) false → 0 < x.toNat → x.toNat < 2 ^ 32 →
              exec (.csetd a b e n k) s = .next (s.ended (.csetd a b e n k)
                (set { d with size := d.size.set k.toNat x.toNat, stride := d.stride.set k.toNat y })))
            ∧ (pays → s.Signed (.csetsScale a b e n) false →
              exec (.csetsScale a b e n) s = .next (s.ended (.csetsScale a b e n)
                (set (if x = 0 then { d with sbase := none, srow := 0 } else { d with sbase := some x, srow := y }))))
            ∧ (y ≠ 0 → exec (.csetsMcast a b e n) s = .next (s.trap .badAddress y))
            ∧ (pays → s.Signed (.csetsMcast a b e n) false → x = 0 → y = 0 →
              exec (.csetsMcast a b e n) s = .next (s.ended (.csetsMcast a b e n) (set { d with mcast := none })))
            ∧ (∀ p q : Nat, pays → s.Signed (.csetsMcast a b e n) false → y = 0 → isCore p = true → isCore q = true → dieOf p = dieOf q →
              s.partOf (dieOf p) = s.partOf (dieOf s.here) → x.toNat = 2 ^ 63 + q * 2 ^ 16 + p →
              exec (.csetsMcast a b e n) s = .next (s.ended (.csetsMcast a b e n)
                (set { d with mcast := some (BitVec.ofNat 12 p, BitVec.ofNat 12 q) }))))
        ∧ (∀ i g, (i, g) ∈ [(Instr.cgo a b e ds dt o, false), (.cgoc a b e ds dt o, true)] → (g = true → hasX s.here = true) →
          (x.toNat % 8 ≠ 0 → exec i s = .next (s.trap .misaligned x))
            ∧ (x = 0 → s.th.descs.find ds.toNat = none → (s.th.descs.find dt.toNat).bind Desc.skew = none →
              exec i s = .next (s.trap .badAddress (BitVec.ofNat 64 ds.toNat)))
            ∧ (s.copyCheck x ds.toNat dt.toNat o.toNat g = none →
              8 ≤ ((s.core s.here).copies.filter (fun c => c.status == 0)).length →
              exec i s = .next (s.withMe (fun c => { c with run := .waiting .cspace })))
            ∧ (∀ p q, s.copyCheck x ds.toNat dt.toNat o.toNat g = none → s.th.descs.find ds.toNat = some p → s.th.descs.find dt.toNat = some q →
              ((s.core s.here).copies.filter (fun c => c.status == 0)).length < 8 → s.th.cq.length + s.outcp s.cur < 8 → pays → s.Signed i false →
              u.cur = s.cur →
              ∃ t, exec i s = .next t ∧ t.th.pc = s.th.pc + 4 ∧ t.mem = u.mem
                ∧ (t.core s.here).copies = (u.core s.here).copies ++ [⟨s.cur, s.seqNow, p.taken, q.taken, o.toNat, x, y,
                  if g then s.th.mat.slot.map (fun m => { m with cid := s.cur }) else none, 0, [], 0, 0, false, s.asnOf s.cur,
                  s.stamp, [], [], [], [], [], none⟩]
                ∧ (g = true → t.th.mat.slot = none ∧ s.th.mat.slot.isSome = true) ∧ (g = false → t.th.mat = u.th.mat))))
    ∧ (pays → s.Signed (.ccan e) false → s.cur < 65536 → s.th.saved = false → ((s.core s.here).copies.map (fun c => c.id)).Nodup →
      ∃ t, exec (.ccan e) s = .next t ∧ t.th.pc = s.th.pc + 4 ∧ t.mem = s.mem
        ∧ (∀ c ∈ (t.core s.here).copies, c.cid = s.cur → c.status = 0 →
          c.closing = some .cancelled ∧ c.staged = none ∧ ∃ j, c.inFlight j = true)
        ∧ (∀ c ∈ (s.core s.here).copies, c.cid = s.cur → c.status = 0 →
          ((∀ j, c.inFlight j = false) → c.record 1 ∈ t.th.cq)
            ∧ ((∃ j, c.inFlight j = true) → { c with staged := none, closing := some .cancelled } ∈ (t.core s.here).copies)
            ∧ ∀ m, c.staged = some m → m.cid = s.cur → ({ m with status := 3 } : MCmd).record ∈ t.th.mq))
    ∧ (∀ (d : Desc) (j0 j1 : Nat), j0 < d.dim 0 → j1 < d.dim 1 →
      d.addr (j0 + d.dim 0 * j1) = d.base + BitVec.ofNat 64 j0 * d.step 0 + BitVec.ofNat 64 j1 * d.step 1
        ∧ d.scale (j0 + d.dim 0 * j1) = d.sbase.getD 0 + BitVec.ofNat 64 (j0 / 32) + BitVec.ofNat 64 j1 * d.srow
        ∧ (d.taken.srow = if d.sbase.isSome && d.srow == 0 then BitVec.ofNat 64 ((d.dim 0 + 31) / 32) else d.srow)
        ∧ d.bytes = (match d.fmt with | 1 | 5 => 2 | 2 | 6 => 4 | 3 | 7 => 8 | _ => 1))

/-- THE COPY SIDING (R261, R270, R278, R307 to R313, R382): a piece of a copy gives its destination element the bytes of its source, a
block's first element its scale byte too; one of a multicast gives them to one core more of its rectangle; a conversion gives the
element the number of its source, and an accumulation the sum of that and the element's own, wherever that is a number of the format;
no other byte changes. A copy whose pieces are done leaves the siding, writes its flag and delivers its record; one that cannot read
its first piece gives a late fault and a record with STATUS 2, once none of its later pieces is on its way to a peer (R308); a piece
from a peer is performed in address space 0. -/
def Obligations.CopiesArePerformed : Prop :=
  ∀ (s : State) (core k : Nat) (c : CopyCmd), s.copyAt core k = some c → c.cid < 65536 → coreOf c.cid = core →
    (s.ctx c.cid).th.saved = false → (s.cluster (clusterOf core)).stopped = false → c.closing = none →
    let x := c.src.addr c.first
    let y := c.dst.addr c.first
    let old := s.mem.nat x.toNat c.src.bytes
    (s.PadSound core → s.MemOk → c.flagOnly = false → c.src.dev = 0 → c.dst.dev = 0 → c.done = [] → c.first < c.dst.count → c.len c.first = 1 →
        padBytes core x c.src.bytes → padBytes core y c.dst.bytes → x.toNat % c.src.bytes = 0 → y.toNat % c.dst.bytes = 0 →
        (c.op = 0 → c.src.sbase = none → c.dst.sbase = none → c.dst.mcast = none → c.dst.bytes = c.src.bytes →
            ∃ t, exec (.copyPieceDone core k 0) s = .next t ∧ t.mem.nat y.toNat c.dst.bytes = old
              ∧ s.mem.SameOutside t.mem y.toNat c.dst.bytes ∧ (t.core core).copies = (s.core core).copies.set k (c.did c.first 0))
          ∧ (c.op = 0 → c.src.sbase.isSome = true → c.dst.sbase.isSome = true → c.dst.mcast = none → c.dst.bytes = c.src.bytes →
            c.first % 32 = 0 → padBytes core (c.src.scale c.first) 1 → padBytes core (c.dst.scale c.first) 1 →
            ((c.dst.scale c.first).toNat < y.toNat ∨ y.toNat + c.dst.bytes ≤ (c.dst.scale c.first).toNat) →
            ∃ t, exec (.copyPieceDone core k 0) s = .next t ∧ t.mem.nat y.toNat c.dst.bytes = old
              ∧ t.mem.read (c.dst.scale c.first).toNat = s.mem.read (c.src.scale c.first).toNat
              ∧ ∀ a, (a < y.toNat ∨ y.toNat + c.dst.bytes ≤ a) → a ≠ (c.dst.scale c.first).toNat → t.mem.read a = s.mem.read a)
          ∧ (∀ b rest, c.op = 0 → c.src.sbase = none → c.dst.sbase = none → c.dst.bytes = c.src.bytes → c.toWrite c.first = some b :: rest →
            c.dst.base.toNat / 2 ^ 19 = y.toNat / 2 ^ 19 → s.PadSound b → s.partOf (dieOf b) = s.partOf (dieOf core) →
            ∃ t, exec (.copyPieceDone core k 0) s = .next t ∧ t.mem.nat (padAt b (y.toNat % 2 ^ 19)) c.dst.bytes = old
              ∧ s.mem.SameOutside t.mem (padAt b (y.toNat % 2 ^ 19)) c.dst.bytes
              ∧ (t.core core).copies = (s.core core).copies.set k
                (let c' := c.wrote c.first (some b); if rest = [] then c'.did c.first 0 else c'))
          ∧ (∀ v n w, c.op = 1 → c.src.sbase = none → c.dst.sbase = none → c.dst.mcast = none →
            (match copyFmt c.src.fmt with | some f => fpNum f old | none => dm8Num old 0) = some v → v ≠ 0 →
            ((copyFmt c.dst.fmt = some w ∧ n < 2 ^ w.width ∧ fpNum w n = some v) ∨ (c.dst.fmt = 0 ∧ n < 256 ∧ dm8Num n 0 = some v)) →
            ∃ t, exec (.copyPieceDone core k 0) s = .next t ∧ t.mem.nat y.toNat c.dst.bytes = n
              ∧ s.mem.SameOutside t.mem y.toNat c.dst.bytes ∧ (t.core core).copies = (s.core core).copies.set k (c.did c.first 0))
          ∧ (∀ v d n w, c.op = 2 → c.src.sbase = none → c.dst.mcast = none → c.grants = [] → c.words = [] → copyFmt c.dst.fmt = some w →
            s.PadWord core (y.toNat / 8 * 8) → s.full core (y.toNat / 8 * 8) = true →
            s.asked core (c.reserve c.first (BitVec.ofNat 64 (y.toNat / 8 * 8))) = false →
            (match copyFmt c.src.fmt with | some f => fpNum f old | none => dm8Num old 0) = some v →
            fpNum w (s.mem.nat y.toNat c.dst.bytes) = some d → d + v ≠ 0 → n < 2 ^ w.width → fpNum w n = some (d + v) →
            ∃ t, exec (.copyPieceDone core k 0) s = .next t ∧ t.mem.nat y.toNat c.dst.bytes = n ∧ t.full core (y.toNat / 8 * 8) = true
              ∧ s.mem.SameOutside t.mem y.toNat c.dst.bytes ∧ ∃ c', (t.core core).copies = (s.core core).copies.set k c' ∧ c'.grants = []
                ∧ c'.first = (c.did c.first 0).first ∧ c'.done = (c.did c.first 0).done))
      ∧ ((c.flagOnly = true ∨ c.dst.count ≤ c.first) → c.staged = none → (∀ d ∈ (s.core core).copies, d.status = 0) →
        (c.flag = 0 ∨ (s.PadSound core ∧ s.MemOk ∧ padBytes core c.flag 8 ∧ c.flag.toNat % 8 = 0)) →
        ∃ t, exec (.copyComplete core k) s = .next t ∧ (t.core core).copies = (s.core core).copies.eraseIdx k
          ∧ (t.ctx c.cid).th = { (s.ctx c.cid).th with cq := (s.ctx c.cid).th.cq ++ [c.record 0] }
          ∧ (c.flag = 0 → t.mem = s.mem) ∧ (c.flag ≠ 0 → t.mem.word c.flag.toNat = c.fval ∧ s.mem.SameOutside t.mem c.flag.toNat 8))
      ∧ (c.flagOnly = false → c.first < c.dst.count → c.src.dev = 0 → (c.src.addr c.first).toNat % c.src.bytes ≠ 0 → c.staged = none →
        (s.ctx c.cid).th.inTrap = false →
        (c.flits ≠ [] → exec (.copyFault core k) s = .next (s.onCore core (fun z =>
          { z with copies := z.copies.set k { c with closing := some (.faulted 2 y false) } })))
        ∧ (c.flits = [] → ∃ t, exec (.copyFault core k) s = .next t ∧ t.mem = s.mem
          ∧ (t.ctx c.cid).th = { (s.ctx c.cid).th with cq := (s.ctx c.cid).th.cq ++ [c.record 2] }
          ∧ (t.ctx c.cid).faults = insertFault ⟨5, 2, none, c.seq, y,
            .copy { c with staged := none, flagOnly := false, status := 2, grants := [], flits := [] }⟩ (s.ctx c.cid).faults))
      ∧ (∀ st, (c.record st).hdr = BitVec.ofNat 64 (core * 2 ^ 52 + ctxOf c.cid * 2 ^ 48 + 2 * 2 ^ 44 + st * 2 ^ 40 + c.seq.toNat * 2 ^ 32
          + c.fval.toNat % 2 ^ 32)
        ∧ (c.record st).data.toNat = min (2 ^ 32 - 1) c.performed * 2 ^ 32 + min (2 ^ 32 - 1) c.sat)
      ∧ (∀ port va b key, (s.peer port).up = true → va.toNat < 2 ^ 63 → s.pieceKey port va = some key → padKey key = false →
        s.agentFree agentCid key 1 = true → s.MemOk →
        ∃ t, exec (.peerCopyPieceArrival port va [b]) s = .next t ∧ t.mem.read key = b ∧ s.mem.SameOutside t.mem key 1)
      ∧ (∀ port va bs, (s.peer port).up = false → exec (.peerCopyPieceArrival port va bs) s = .next s)

/-- THE MATRIX SIDING (R319 to R327, R331, R391): a staged command enters its queue when a place is free; the free siding starts the
eligible command of highest effective priority, the earliest first; an INT8 k-step adds to each accumulator element, or writes it, the
sum of 64 products, saturating; a DM8 or BF16 k-step adds the sum of 64 products exactly where they are whole numbers of a sum within
2 ^ 24; MCLR and raw MACP write accumulators or scratchpad; each leaves its record, which waits for a place in the lane, a fault with
STATUS 2. While the cluster's clock stands nothing is done (R389).

The model's choices: MCLR and MACP are made as a whole in one step, and a command whose lane is full holds the siding (log 37, DEDUCED). -/
def Obligations.MatrixCommandsArePerformed : Prop :=
  ∀ (s : State) (core : Nat) (c : MCmd), c.cid < 65536 → (s.ctx c.cid).th.saved = false →
    let x := s.core core
    let row (i : Nat) : Word := c.b + BitVec.ofNat 64 (16 * (c.a.toNat / 2 ^ 20 % 2 ^ 16) * i)
    let r0 := c.a.toNat / 2 ^ 6 % 2 ^ 6
    let rows := c.a.toNat % 2 ^ 6 + 1
    let bank := c.a.toNat / 2 ^ 12 % 4
    let sat (z : Int) : Int := max (-2147483648) (min 2147483647 z)
    let size := if c.fmt = 2 then 2 else 1
    let num (n : Nat) : Option Rat := if c.fmt = 2 then fpNum bf16 n else dm8Num n 0
    let runs := (s.cluster (clusterOf core)).stopped = false
    (∀ rest, x.staged = c :: rest → (x.mat.filter (fun m => m.prio == c.prio)).length < 8 →
        exec (.stagedEnter core) s = .next (s.onCore core (fun y => { y with staged := rest, mat := y.mat ++ [{ c with age := y.cyc }] })))
      ∧ ((s.cluster (clusterOf core)).stopped = true → ∀ i ∈ [Instr.matrixStart core, .planeLoadDone core, .kstepDone core, .matrixComplete core,
        .matrixFault core], exec i s = .next s)
      ∧ (x.running = none → s.mxReady core ≠ [] →
        ∃ t m, exec (.matrixStart core) s = .next t ∧ (t.core core).running = some ⟨m, false, false⟩ ∧ m ∈ x.mat ++ x.suspended
          ∧ (∀ o ∈ x.mat ++ x.suspended ++ x.staged, o.cid = m.cid → m.ord ≤ o.ord)
          ∧ (∀ o ∈ s.mxReady core, min 3 (o.prio + (x.cyc - o.age) / 4096) < min 3 (m.prio + (x.cyc - m.age) / 4096)
            ∨ (min 3 (o.prio + (x.cyc - o.age) / 4096) = min 3 (m.prio + (x.cyc - m.age) / 4096) ∧ m.age ≤ o.age))
          ∧ m ∉ (t.core core).mat ++ (t.core core).suspended ∧ t.mem = s.mem)
      ∧ (∀ l f, x.running = some ⟨c, l, f⟩ → c.code = 2 → runs →
        exec (.planeLoadDone core) s = .next (s.onCore core (fun y => { y with running := some ⟨c, true, f⟩ })))
      ∧ (x.running = some ⟨c, true, false⟩ → c.code = 2 → c.fmt = 1 → c.sa = false → c.sw = false → s.PadSound core → runs →
        (∀ p ∈ c.spans c.k, padBytes core p.1 p.2) →
        ∃ t, exec (.kstepDone core) s = .next t ∧ t.mem = s.mem
          ∧ (∀ i n, i < rows → n < 64 → ((t.core core).acc.get (bank * 4096 + (r0 + i) * 64 + n) 0).toInt
            = sat ((if c.a.getLsbD 18 = true ∧ c.k = 0 then 0 else (x.acc.get (bank * 4096 + (r0 + i) * 64 + n) 0).toInt)
              + ((List.range 64).map (fun k => signedOf (s.mem.nat ((row i + BitVec.ofNat 64 (64 * c.k)).toNat + k) 1) 8
                * signedOf (s.mem.nat ((c.planes.getD c.k (0, 0)).1.toNat + (64 * k + n)) 1) 8)).sum))
          ∧ (c.a.toNat / 2 ^ 14 % 2 ^ 4 + 1 ≤ c.k + 1 →
            ∃ r, (t.core core).running = some r ∧ r.finished = true ∧ r.cmd.k = c.k + 1 ∧ r.cmd.cid = c.cid))
      ∧ (x.running = some ⟨c, true, false⟩ → c.code = 2 → c.fmt = 0 ∨ c.fmt = 2 → c.sa = false → c.sw = false → s.PadSound core → runs →
        (∀ p ∈ c.spans c.k, padBytes core p.1 p.2) →
        ∃ t, exec (.kstepDone core) s = .next t ∧ t.mem = s.mem
          ∧ ∀ i n (p q : Nat → Int) (g : Int), i < rows → n < 64 →
            (∀ k, k < 64 → num (s.mem.nat ((row i + BitVec.ofNat 64 (64 * c.k * size)).toNat + k * size) size) = some (p k : Rat)
              ∧ num (s.mem.nat ((c.planes.getD c.k (0, 0)).1.toNat + (64 * k + n) * size) size) = some (q k : Rat)) →
            (if c.a.getLsbD 18 = true ∧ c.k = 0 then g = 0
              else fpNum fp32 (x.acc.get (bank * 4096 + (r0 + i) * 64 + n) 0).toNat = some (g : Rat)) →
            g.natAbs + ((List.range 64).map (fun k => (p k * q k).natAbs)).sum ≤ 2 ^ 24 →
            fpNum fp32 ((t.core core).acc.get (bank * 4096 + (r0 + i) * 64 + n) 0).toNat
              = some ((g + ((List.range 64).map (fun k => p k * q k)).sum : Int) : Rat))
      ∧ (x.running = some ⟨c, false, false⟩ → (s.ctx c.cid).th.mq.length < 8 → s.PadSound core → s.MemOk → runs →
        (c.code = 4 → ∃ t, exec (.matrixComplete core) s = .next t ∧ (t.core core).running = none ∧ t.mem = s.mem
            ∧ (t.ctx c.cid).th = { (s.ctx c.cid).th with mq := (s.ctx c.cid).th.mq ++ [c.record] }
            ∧ (∀ i n, i < rows → n < 64 → (t.core core).acc.get (bank * 4096 + (r0 + i) * 64 + n) 0 = 0))
          ∧ (c.code = 3 → rows = 1 → c.a.toNat / 2 ^ 14 % 2 ^ 3 = 0 → padBytes core c.b 256 → c.b.toNat % 16 = 0 →
            ∃ t, exec (.matrixComplete core) s = .next t ∧ (t.core core).running = none ∧ (t.core core).acc = x.acc
              ∧ (t.ctx c.cid).th.mq = (s.ctx c.cid).th.mq ++ [c.record] ∧ s.mem.SameOutside t.mem c.b.toNat 256
              ∧ ∀ n, n < 64 → t.mem.nat (c.b.toNat + 4 * n) 4 = (x.acc.get (bank * 4096 + r0 * 64 + n) 0).toNat)
          ∧ (c.code = 3 → rows = 1 → c.a.toNat / 2 ^ 14 % 2 ^ 3 = 1 → padBytes core c.b 256 → c.b.toNat % 16 = 0 →
            ∃ t, exec (.matrixComplete core) s = .next t ∧ (t.core core).running = none ∧ t.mem = s.mem
              ∧ (t.ctx c.cid).th.mq = (s.ctx c.cid).th.mq ++ [c.record]
              ∧ ∀ n, n < 64 → ((t.core core).acc.get (bank * 4096 + r0 * 64 + n) 0).toNat = s.mem.nat (c.b.toNat + 4 * n) 4))
      ∧ (x.running = some ⟨c, false, false⟩ → c.code = 4 → runs → 8 ≤ (s.ctx c.cid).th.mq.length →
        ∃ t, exec (.matrixComplete core) s = .next t ∧ (t.core core).running = some ⟨c, false, true⟩ ∧ (t.ctx c.cid).th.mq = (s.ctx c.cid).th.mq
          ∧ t.mem = s.mem ∧ (∀ i n, i < rows → n < 64 → (t.core core).acc.get (bank * 4096 + (r0 + i) * 64 + n) 0 = 0))
      ∧ (x.running = some ⟨c, false, false⟩ → c.code = 3 → c.a.getLsbD 14 = false → x.badAcc = [] → x.powered = false → runs → (s.ctx c.cid).th.inTrap = false →
        (s.ctx c.cid).th.mq.length < 8 →
        ∃ t, exec (.matrixFault core) s = .next t ∧ (t.core core).running = none ∧ t.mem = s.mem
          ∧ (t.ctx c.cid).th.mq = (s.ctx c.cid).th.mq ++ [({ c with status := 2 } : MCmd).record]
          ∧ (t.ctx c.cid).faults = insertFault ⟨7, 2, none, c.seq, c.b, .mat c⟩ (s.ctx c.cid).faults)
      ∧ (c.record.hdr = BitVec.ofNat 64 (coreOf c.cid * 2 ^ 52 + ctxOf c.cid * 2 ^ 48 + 3 * 2 ^ 44 + c.status * 2 ^ 40 + c.seq.toNat * 2 ^ 32
          + (c.code * 2 ^ 16 + c.k))
        ∧ c.record.data.toNat = if c.code = 2 then min c.sat 65535 * 2 ^ 32 + min c.nan 65535 * 2 ^ 16 + min c.bso 65535
          else if c.code = 3 then min c.sat 65535 * 2 ^ 32 else 0)
      ∧ (∀ p q r, let t := s.mxCommit c.cid p q r
        let o := (s.ctx c.cid).th
        (t.ctx c.cid).th.mxsat.toNat = min (2 ^ 32 - 1) (o.mxsat.toNat + p) ∧ (t.ctx c.cid).th.mxnan.toNat = min (2 ^ 32 - 1) (o.mxnan.toNat + q)
          ∧ (t.ctx c.cid).th.mxbso.toNat = min (2 ^ 32 - 1) (o.mxbso.toNat + r) ∧ t.mem = s.mem
          ∧ (o.mxthr.toNat % 2 ^ 16 ≠ 0 → o.mxsat.toNat < o.mxthr.toNat % 2 ^ 16 → o.mxthr.toNat % 2 ^ 16 ≤ o.mxsat.toNat + p →
            ∃ v, (t.ctx c.cid).asyncs.find 2 = some v ∧ v.getLsbD 0 = true)
          ∧ (p = 0 → q = 0 → r = 0 → (t.ctx c.cid).asyncs = (s.ctx c.cid).asyncs))
      ∧ (∀ die amps, exec (.currentLimiterSample die amps) s = .next (s.onDie die (fun d => { d with
        holding := if d.limitAmps < amps then true else if amps * 100 < d.limitAmps * 95 then false else d.holding })))

/-- LINKS, CLOCKS, POWER AND HEAT (R373, R383 to R385, R388 to R390): a failed boundary is remembered; a good flit in sequence is taken, any
other asks for a replay; a peer that asks gets the replay buffer again, and a flit's sixteenth replay takes the port down; a rollover
turns the epoch and starts the nonce anew, and one that waits begins when the marker of the one before has been acknowledged; a copy of
GTIME is never more than 8 ns behind another, and hub W's beat corrects the copies; a frequency change stops a cluster at its new
increment until it resumes, and so does a level step of heat and power; a trip cancels, powers off the dies and is reported on every
function.

ENERGY (R282, R403): a refill gives each context of a core that holds a thread of a budgeted launch ESHARE / 256 of the launch's
refill, at most its budget, unless EHOLD is set; an interval ends once its microsecond is over, and adds to each launch of the die's
partition its energy and its share of the die's leakage, what is left being idle energy.

The model's choices: the codes of the marker and of a request for replay (log 9), the numbers of boundaries (log 31), one level a sample
and the state a trip loses (log 44), the core and the code that a trip shows (log 10), the context-cycles of an interval (log 85), and
the furthest copy as the package's time (log 102). -/
def Obligations.LinksClocksPowerAndEnergy : Prop :=
  (∀ (s : State) (port n : Nat),
    let p := s.peer port
    (n < 10 → ∃ t, exec (.boundaryFailure n) s = .next t ∧ n ∈ t.failed ∧ (∀ b ∈ s.failed, b ∈ t.failed) ∧ t.mem = s.mem)
      ∧ (∀ hdr tag, p.up = true → p.rolling = false → p.marker = none →
        let asks := hdr.toNat / 2 ^ 13 % 2 ^ 3 = Config.freeAskKind.toNat
        let left := ackFlits p.replay (BitVec.ofNat 12 (hdr.toNat / 2 ^ 16))
        (tag = true → hdr.toNat % 2 ^ 12 = p.rxSeq.toNat →
            ∃ t, exec (.flitReceive port hdr tag) s = .next t ∧ (t.peer port).rxSeq = p.rxSeq + 1 ∧ (t.peer port).replayAsked = none
              ∧ (¬ asks → (t.peer port).up = true ∧ (t.peer port).replay = left)
              ∧ (asks → (∀ f ∈ left, f.times < 15) → (t.peer port).up = true
                ∧ (t.peer port).replay = left.map (fun f => { f with times := f.times + 1 }))
              ∧ (asks → (∃ f ∈ left, 15 ≤ f.times) → (t.peer port).up = false ∧ (t.peer port).replay = []))
          ∧ ((tag = false ∨ hdr.toNat % 2 ^ 12 ≠ p.rxSeq.toNat) →
            exec (.flitReceive port hdr tag) s = .next (s.setPeer port { p with replayAsked := some p.rxSeq })))
      ∧ (p.up = true → p.rolling = true → exec (.keyRollover port) s = .next (s.setPeer port { p with rollWanted := true }))
      ∧ (p.up = true → p.rolling = false → (∃ f ∈ p.replay, f.epoch = p.epoch) →
        exec (.keyRollover port) s = .next (s.setPeer port { p with epoch := !p.epoch, nonce := 0, rolling := true, rollWanted := false }))
      ∧ (∀ q n, p.up = true → p.rolling = true → p.marker = some q → p.replay = [⟨q, p.epoch, n⟩] → p.rollWanted = true →
        (∀ hdr, hdr.toNat % 2 ^ 12 = p.rxSeq.toNat → hdr.toNat / 2 ^ 16 % 2 ^ 12 = q.toNat → ∃ t, exec (.flitReceive port hdr true) s = .next t
            ∧ (t.peer port).epoch = !p.epoch ∧ (t.peer port).rolling = true ∧ (t.peer port).rollWanted = false
            ∧ (t.peer port).marker = some p.txSeq ∧ (t.peer port).nonce = 1)
          ∧ (∀ hdr, hdr.toNat % 2 ^ 12 = p.rxSeq.toNat → hdr.toNat / 2 ^ 16 % 2 ^ 12 ≠ q.toNat → ∃ t, exec (.flitReceive port hdr true) s = .next t
            ∧ (t.peer port).epoch = p.epoch ∧ (t.peer port).rolling = true ∧ (t.peer port).rollWanted = true ∧ (t.peer port).marker = some q))
      ∧ (port < 24 → ∃ t, exec (.peerPortDown port) s = .next t ∧ (t.peer port).up = false ∧ t.ready.getLsbD (24 + port) = false
        ∧ (∀ j, j ≠ 24 + port → t.ready.getLsbD j = s.ready.getLsbD j) ∧ t.mem = s.mem)
      ∧ (∀ ns, (s.beat ≠ some ns → exec (.correctionBeat ns) s = .next s)
        ∧ (s.beat = some ns → ∃ t, exec (.correctionBeat ns) s = .next t ∧ t.beat = none ∧ t.mem = s.mem ∧ ∀ c, c < 384 →
          (t.cluster c).ns = s.copyNs c ∧ (s.copyNs c = s.now → (t.cluster c).inc = levelInc (s.cluster c).level)))
      ∧ (let t := s.clock n
        s.now.toNat ≤ t.now.toNat ∧ (t.now.toNat / 4096 ≠ s.now.toNat / 4096 → t.beat = some t.now)
          ∧ (t.now.toNat / 4096 = s.now.toNat / 4096 → t.beat = s.beat))
      ∧ (∀ c d, (s.cluster d).ns.toNat ≤ s.now.toNat → (s.copyNs d).toNat ≤ (s.copyNs c).toNat + 8)
      ∧ (∀ level, n < 384 → level ≤ 4 → ∃ t, exec (.frequencyChange n level) s = .next t ∧ t.mem = s.mem
        ∧ t.cluster n = { s.cluster n with stopped := true, level := level, inc := levelInc level })
      ∧ ((∀ c ∈ coresOfCluster n, (s.core c).gangDue = false) →
        exec (.frequencyResume n) s = .next (s.setCluster n { s.cluster n with stopped := false }))
      ∧ (∀ die temp q, die < 8 → q < 48 → ∃ t, exec (.thermalStep die temp) s = .next t ∧ t.mem = s.mem
        ∧ ((t.cluster (die * 48 + q)).level ≠ (s.cluster (die * 48 + q)).level → (t.cluster (die * 48 + q)).stopped = true)
        ∧ (100 ≤ temp → (t.cluster (die * 48 + q)).level = if (s.cluster (die * 48 + q)).level < 4 then (s.cluster (die * 48 + q)).level + 1
            else (s.cluster (die * 48 + q)).level)
        ∧ (temp < 95 → 0 < (s.cluster (die * 48 + q)).hot → (t.cluster (die * 48 + q)).level = (s.cluster (die * 48 + q)).level - 1))
      ∧ (∀ die, ∃ t, exec (.thermalTrip die) s = .next t ∧ t.offDies = List.range 8 ∧ (∀ c, t.core c = Core.zero)
        ∧ (∀ c, isHub (coreOf c) = false → t.ctx c = Ctx.zero)
        ∧ (∀ fn, s.isFn fn = true → (t.func fn).fwfault = (s.func fn).fwfault ++ [(die % 8 * 512, Config.freeTrip)]))
      ∧ (∀ watts c, c < 384 → ∃ t, exec (.powerStepDown watts) s = .next t ∧ t.mem = s.mem
        ∧ ((t.cluster c).level ≠ (s.cluster c).level → (t.cluster c).stopped = true)
        ∧ ((watts < 3400 ∨ (watts ≤ 3600 ∧ (s.cluster c).overload = false)) → t.cluster c = { s.cluster c with overload := false })
        ∧ ((3600 < watts ∨ (3400 ≤ watts ∧ (s.cluster c).overload = true)) → (t.cluster c).overload = true
          ∧ (t.cluster c).level = if (s.cluster c).level < 4 then (s.cluster c).level + 1 else (s.cluster c).level)))
    ∧ (∀ (s : State) (core die : Nat),
    ((s.core core).ehold = true → exec (.energyRefill core) s = .next s)
      ∧ ((s.core core).ehold = false → ∃ t, exec (.energyRefill core) s = .next t ∧ t.mem = s.mem ∧ t.net = s.net
        ∧ ∀ k l, 0 < k → k < 16 → (s.ctx (core * 16 + k)).holdsThread = true → (s.ctx (core * 16 + k)).run ≠ .suspended →
          s.launch (s.ctx (core * 16 + k)).th.launch = some l → l.ebudget ≠ 0 →
          (t.ctx (core * 16 + k)).th = { (s.ctx (core * 16 + k)).th with
            ebudget := BitVec.ofNat 32 (min l.ebudget ((s.ctx (core * 16 + k)).th.ebudget.toNat + l.erefill * (s.core core).eshare.toNat / 256)) })
      ∧ (s.now.toNat / 1000 ≤ (s.die die).intervals → exec (.energyInterval die) s = .next s)
      ∧ ((s.die die).intervals < s.now.toNat / 1000 → ∃ t, exec (.energyInterval die) s = .next t
        ∧ (t.die die).intervals = (s.die die).intervals + 1 ∧ (t.die die).occ = [] ∧ (t.die die).cycles = 0
        ∧ (t.part (s.partOf die)).submitted = (s.part (s.partOf die)).submitted
        ∧ t.launches.map (fun l => (l.num, l.energy)) = s.launches.map (fun l => (l.num,
          if l.part = s.partOf die ∧ (l.ended = false ∨ ∃ f, l.final = some f ∧ die ∈ f.dies) then
            l.energy + Config.freeEnergy die (s.die die).intervals l.num
              + Config.freeLeak die (s.die die).intervals * (s.die die).occ.get l.num 0 / (s.die die).ctxCycles else l.energy))
        ∧ ((∀ l ∈ s.launches, l.part ≠ s.partOf die) →
          (t.part (s.partOf die)).idle = (s.part (s.partOf die)).idle + Config.freeLeak die (s.die die).intervals)
        ∧ ((∀ l ∈ s.launches, l.final = none) → t.mem = s.mem)))


/-! ### The register halves of an MTS or a window -/

/-- REGISTER WRITES AND WINDOWS (R248, R249, R255 to R257, R266, R267, R328, R379, R392, R396, R402): the halves that an MTS, a window of
context 0 or a host write performs set what their register shows and leave memory as it was. A write of the launch word stands behind
its function's posted writes; the thread of its hub, told of it, reads the word in a step of the machine's own.

The model's choices: CECNT and UECNT are cleared by operation 3 (log 22), the launch word is read in a later step (log 45), the release of
a line on which no write is held does nothing (log 47), and each row of the table that names such a half is a step of its own (log 27). -/
def Obligations.RegisterHalvesAndWindows : Prop :=
  ∀ (s : State) (cid core fn : Nat) (v : Word),
    (s.outv cid = 0 →
        exec (.fpmodeWrite cid v) s = .next (s.onCtx cid (fun c => { c with th := { c.th with fpmode := BitVec.ofNat 2 v.toNat } }))
          ∧ exec (.fpflagsAccess cid (some v)) s = .next (s.onCtx cid (fun c => { c with th := { c.th with fpflags := BitVec.ofNat 5 v.toNat } })))
      ∧ (s.outv cid ≠ 0 → exec (.fpmodeWrite cid v) s = .next s ∧ exec (.fpflagsAccess cid (some v)) s = .next s)
      ∧ exec (.fpflagsAccess cid none) s = .next s
      ∧ exec (.mxCounterClear cid 0) s = .next (s.onCtx cid (fun c => { c with th := { c.th with mxsat := 0 } }))
      ∧ exec (.mxCounterClear cid 1) s = .next (s.onCtx cid (fun c => { c with th := { c.th with mxnan := 0 } }))
      ∧ exec (.mxCounterClear cid 2) s = .next (s.onCtx cid (fun c => { c with th := { c.th with mxbso := 0 } }))
      ∧ (∀ k, exec (.profClear core k) s = .next (s.onCore core (fun c => { c with prof := c.prof.set k.toNat (0, 0) })))
      ∧ ((s.core core).trace = [] → (s.core core).traceNet = [] → ∃ t, exec (.trcctlWrite core v) s = .next t ∧ (t.core core).trcctl = v &&& 0xFFFFFFFFFFFFFC00 ∧ t.mem = s.mem
        ∧ (v.toNat / 2 ^ 12 = (s.core core).trcctl.toNat / 2 ^ 12 → (t.core core).trclost = (s.core core).trclost)
        ∧ (v.toNat / 2 ^ 12 ≠ (s.core core).trcctl.toNat / 2 ^ 12 → (t.core core).trclost.toNat = (s.core core).trclost.toNat % 2 ^ 32))
      ∧ (((s.core core).trace ≠ [] ∨ (s.core core).traceNet ≠ []) → exec (.trcctlWrite core v) s = .next s)
      ∧ (∀ code line, code.toNat % 512 ≠ 31 → ∃ t r, exec (.windowInvalidate core code line) s = .next t ∧ t.mem = s.mem
        ∧ (t.ctx (core * 16)).posted = (s.ctx (core * 16)).posted ++ [r]
        ∧ t.net = s.net ++ [⟨core, code.toNat, .inval (2 ^ 64 + line % 2 ^ 48 / 256 * 256) core code.toNat true⟩])
      ∧ (∀ i x, x.toNat / 2 ^ 40 % 2 ^ 8 = 0xFF → x.toNat / 2 ^ 32 % 2 ^ 8 = 2 → 32 ≤ s.me.unack →
        s.windowStore i x v = .next (s.withMe (fun c => { c with run := .waiting .posted })))
      ∧ (∀ e rest, (s.core core).ovfq = e :: rest → exec (.windowOverflowPop core) s = .next (s.onCore core (fun c => { c with ovfq := rest })))
      ∧ ((s.core core).ovfq = [] → exec (.windowOverflowPop core) s = .next s)
      ∧ (∀ line l u, l = 2 ^ 64 + line % 2 ^ 48 / 256 * 256 → u = s.onLine core l (fun d => { d with ovf := false, told := false }) →
        (s.lineHeld core l = false → exec (.windowOverflowRelease core line) s = .next s)
          ∧ (s.lineHeld core l = true → (s.core core).helds = [] → s.agentReqs = [] → exec (.windowOverflowRelease core line) s = .next u
            ∧ (u.core core).dir.find l = some { dirOf (s.core core) l with ovf := false, told := false } ∧ u.mem = s.mem)
          ∧ (∀ r p a, (s.core core).helds = [r] → s.agentReqs = [] → r.cid < hostCid → a.2 ≠ .refused → s.lineHeld core l = true → padKey r.key = false → s.translate r.key true = .ok p → lineOf p = l →
            (s.core core).hosted = [] → a = (u.onCore core (fun c => { c with helds := [] })).home core r →
            exec (.windowOverflowRelease core line) s = .next (a.1.homeTook core r a.2)))
      ∧ (∀ (b : BitVec 4) g, g = groupOf (s.core core) (b.toNat / 4) →
        (g.st = .normal → g.draining = false → g.queue = [] → ∃ t, exec (.slateRetireBank core b) s = .next t ∧ t.mem = s.mem ∧ (t.core core).slateErr = false
            ∧ (groupOf (t.core core) (b.toNat / 4)).st = .degraded ∧ (groupOf (t.core core) (b.toNat / 4)).rbank = b.toNat % 4)
          ∧ (g.st = .normal → g.draining = false → g.queue ≠ [] → ∃ t, exec (.slateRetireBank core b) s = .next t ∧ t.mem = s.mem
            ∧ (t.core core).slateErr = false ∧ groupOf (t.core core) (b.toNat / 4) = { g with draining := true, rbank := b.toNat % 4 })
          ∧ (g.st ≠ .normal → exec (.slateRetireBank core b) s = .next (s.onCore core (fun c => { c with slateErr := true })))
          ∧ (g.st = .lost → exec (.slateFailParity core b) s = .next (s.onCore core (fun c => { c with slateErr := true })))
          ∧ (g.st ≠ .lost → ∃ t, exec (.slateFailParity core b) s = .next t ∧ t.mem = s.mem ∧ (t.core core).slateErr = false
            ∧ (groupOf (t.core core) (b.toNat / 4)).st = (if g.st = .degraded ∨ (g.st = .normal ∧ g.draining = true) then .lost else .unprotected)))
      ∧ exec (.slateClearCounts core) s = .next (s.onCore core (fun c => { c with bankErrs := [], cecnt := 0, uecnt := 0, slateErr := false }))
      ∧ exec (.slatestWrite core v) s = .next (s.onCore core (fun c => { c with
        cecnt := BitVec.ofNat 8 (v.toNat / 2 ^ 24 % 2 ^ 8), uecnt := BitVec.ofNat 8 (v.toNat / 2 ^ 16 % 2 ^ 8) }))
      ∧ ((s.core core).powered = true → ∃ t, exec (.scrubPass core) s = .next t ∧ t.mem = s.mem
        ∧ (t.core core).scrubPos = ((s.core core).scrubPos + 1) % 8192
        ∧ (t.core core).badWords = (s.core core).badWords
        ∧ ∀ w, w / 8 = (s.core core).scrubPos → w ∉ (s.core core).badWords → (groupOf (s.core core) (groupNo w)).stale (rowOf w) = false →
          w ∉ (t.core core).softWords)
      ∧ (∀ b n rest, (s.core core).scrubs = (b, n) :: rest → (s.core core).powered = true → ∃ t, exec (.scrubRequestBlock core) s = .next t
        ∧ t.mem = s.mem ∧ (t.core core).scrubs = (if n ≤ 1 then rest else (b + 1, n - 1) :: rest)
        ∧ (t.core core).badWords = (s.core core).badWords
        ∧ ∀ w, w / 8 = b → w ∉ (s.core core).badWords → (groupOf (s.core core) (groupNo w)).stale (rowOf w) = false → w ∉ (t.core core).softWords)
      ∧ (∀ (g : BitVec 2) e q, (groupOf (s.core core) g.toNat).queue = e :: q → ∃ t, exec (.parityUpdate core g) s = .next t ∧ t.mem = s.mem
        ∧ (groupOf (t.core core) g.toNat).queue = q
        ∧ (groupOf (t.core core) g.toNat).st = (if (groupOf (s.core core) g.toNat).draining = true ∧ q = [] then .degraded
          else (groupOf (s.core core) g.toNat).st))
      ∧ (s.isFn fn = true →
        (s.agentBehind (postedCid fn) = none → ∃ t, exec (.launchwWrite fn v) s = .next t ∧ (t.func fn).launchw = v
            ∧ (t.ctx (hubOfFn fn * 16)).ready = true ∧ t.mem = s.mem ∧ t.parts = s.parts)
          ∧ (∀ h, s.agentBehind (postedCid fn) = some h → ∃ t r, exec (.launchwWrite fn v) s = .next t
            ∧ t.net = s.net ++ [⟨h, h, .req r⟩] ∧ r.op = .launch v ∧ r.cid = postedCid fn ∧ (t.func fn).launchw = (s.func fn).launchw)
          ∧ (∀ h r, r.op = .launch v → r.cid = postedCid fn → ((s.home h r).1.func fn).launchw = v
            ∧ ((s.home h r).1.ctx (hubOfFn fn * 16)).ready = true)
          ∧ ((s.func fn).launchw = v → (v.toNat % 256 ≠ 0 ∨ 2 ^ 48 ≤ v.toNat) → v ≠ BitVec.allOnes 64 → s.hubUp (hubOfFn fn) = true →
            let t := s.readLaunchw fn
            (t.func fn).launchw = BitVec.allOnes 64 ∧ t.mem = s.mem ∧ t.parts = s.parts)
          ∧ (∀ k r, (s.func fn).launchw = v → v ≠ 0 → v.toNat % 256 = 0 → v.toNat < 2 ^ 48 → s.hubUp (hubOfFn fn) = true →
            rangeFor (s.part (s.fnPart fn)).table v.toNat = some r → s.translate (vkey (spaceOf (s.fnPart fn) 0) v) false = .ok k →
            padKey k = false →
            let t := s.readLaunchw fn
            (s.blocksHeld (s.fnPart fn) < 64 → (t.func fn).launchw = 0 ∧ t.mem = s.mem
              ∧ (t.part (s.fnPart fn)).submitted = (s.part (s.fnPart fn)).submitted ++ [⟨v, s.hostView fn, s.mem.bytes k 256⟩])
            ∧ (64 ≤ s.blocksHeld (s.fnPart fn) → t = s))
          ∧ ((s.func fn).launchw = v → v = 0 ∨ v = BitVec.allOnes 64 ∨ s.hubUp (hubOfFn fn) = false → s.readLaunchw fn = s)
          ∧ (s.fnHas fn (v.toNat % 4096) = true →
            exec (.dbgselWrite fn v) s = .next (s.onFunc fn (fun f => { f with dbgsel := BitVec.ofNat 12 v.toNat })))
          ∧ (s.fnHas fn (v.toNat % 4096) = false → exec (.dbgselWrite fn v) s = .next s))


/-! ### Host, bring-up, debug, trace, links, clocks and power -/

/-- BRING-UP AND THE HOST PORTS (R249, R374, R377 to R381, R386, R387, R404): a staged image is checked and runs where the root of trust
accepts it; a unit becomes ready once, the host ports before boot and every other after it, and a die's supervisors start at the
firmware's entry; host reads, writes and messages reach device memory and cores of the function's partition, or stand behind an earlier
store, are answered, refused and counted; registers of BAR 0 read as they stand; power-up leaves the reset state.

The model's choices: a GANG write with another PART does nothing (log 88), the order of a hub's messages to different cores (log 84),
what the management cores' firmware does, as steps of the device (log 46), zero in the registers of a started supervisor (log 11), and
what an image and a challenge give (logs 8 and 4). -/
def Obligations.HostAndBringUp : Prop :=
  ∀ (s : State) (fn k off size : Nat) (v x : Word),
    (((s.func 0).bootSt = 0 ∨ (s.func 0).bootSt = 0xF → ∃ t, exec (.bootImageStaged 0) s = .next t ∧ t.mem = s.mem ∧ t.pages = s.pages
        ∧ ∀ n, n < 4 → (t.func n).bootSt = 1 ∧ (t.func n).bootErr = 0)
      ∧ (fn ≠ 0 ∨ ((s.func 0).bootSt ≠ 0 ∧ (s.func 0).bootSt ≠ 0xF) → exec (.bootImageStaged fn) s = .next s)
      ∧ ((s.func 0).bootSt = 1 → s.trust.mem = s.mem ∧ ∀ n, n < 4 → (s.trust.func n).bootSt = 2 ∧ (s.trust.func n).bootErr = 0)
      ∧ ((s.func 0).bootSt = 2 →
        (Config.freeVerdict (s.func 0).staging ≠ 0 → s.trust.mem = s.mem ∧ s.trust.pages = s.pages
            ∧ ∀ n, n < 4 → (s.trust.func n).bootSt = 0xF ∧ (s.trust.func n).bootErr = Config.freeVerdict (s.func 0).staging)
          ∧ (Config.freeVerdict (s.func 0).staging = 0 → (∀ n, n < 4 → (s.trust.func n).bootSt = 3 ∧ (s.trust.func n).bootErr = 0)
            ∧ s.trust.whole = Config.freeWhole (s.func 0).staging ∧ s.trust.bootFirmware = Config.freeEntry (s.func 0).staging
            ∧ s.trust.hubUp 0xFFE = true ∧ s.trust.hubUp 0xFFF = true ∧ ∀ d l, s.trust.peers.find d = some l → l.length ≤ 4))
      ∧ ((s.func 0).bootSt ≠ 1 → (s.func 0).bootSt ≠ 2 → s.trust = s)
      ∧ ((s.func 0).bootSt ≠ 3 → off < 2 ^ 22 →
        exec (.firmwareStagingWrite fn off v) s = .next (s.onFunc fn (fun f => { f with staging := Tab.set f.staging off v })))
      ∧ (((s.func 0).bootSt = 3 ∨ 2 ^ 22 ≤ off) → exec (.firmwareStagingWrite fn off v) s = .next s)
      ∧ (((s.func 0).bootSt = 3 ∨ 48 ≤ k) → k < 50 → s.ready.getLsbD k = false → (16 ≤ k → k - 16 ∉ s.offDies) → ∃ t, exec (.unitReady k) s = .next t ∧ t.mem = s.mem
        ∧ t.ready.getLsbD k = true ∧ (∀ j, j ≠ k → t.ready.getLsbD j = s.ready.getLsbD j)
        ∧ (24 ≤ k → k < 48 → t.peer (k - 24) = { PeerPort.zero with up := true })
        ∧ (∀ core, 16 ≤ k → k < 24 → core ∈ coresOfDie (k - 16) → (t.ctx (core * 16)).run = .runnable
          ∧ (t.ctx (core * 16)).fetchPc = s.bootFirmware ∧ (t.core core).presented = none
          ∧ ∃ n, (t.ctx (core * 16)).th = { Thread.zero with pc := s.bootFirmware, tid := n }))
      ∧ ((((s.func 0).bootSt ≠ 3 ∧ k < 48) ∨ 50 ≤ k ∨ s.ready.getLsbD k = true ∨ (16 ≤ k ∧ k - 16 ∈ s.offDies)) → exec (.unitReady k) s = .next s)
      ∧ exec .powerUp s = .next { State.reset with agenda := s.agenda })
    ∧ (s.isFn fn = true →
      exec (.attestationRequest fn v) s = .next (s.onFunc fn (fun f => { f with report := some (Config.freeReport v) }))
      ∧ ((s.func fn).fwfault = [] → exec (.fwfaultRead fn) s = .next (s.onFunc fn (fun f => { f with readData := f.readData ++ [(0, false)] })))
      ∧ (∀ c e rest, (s.func fn).fwfault = (c, e) :: rest → exec (.fwfaultRead fn) s = .next (s.onFunc fn (fun f =>
          { f with fwfault := rest, readData := f.readData ++ [(BitVec.ofNat 64 (c * 2 ^ 52 + e.toNat), false)] })))
      ∧ exec (.hmdropRead fn) s = .next (s.onFunc fn (fun f =>
          { f with readData := f.readData ++ [(BitVec.ofNat 64 f.hmdrop.toNat, false)], hmdrop := 0 }))
      ∧ exec (.hbadwRead fn) s = .next (s.onFunc fn (fun f =>
          { f with readData := f.readData ++ [(BitVec.ofNat 64 f.hbadw.toNat, false)], hbadw := 0 }))
      ∧ (∀ f, s.func fn = f → f.hmq.length < 64 → f.hmdest.toNat / 2 ^ 24 % 2 ^ 8 = 0 → s.fnHas fn (f.hmdest.toNat % 2 ^ 12) = true →
        exec (.hmdataWrite fn v) s = .next (s.onFunc fn (fun f => { f with hmdata := v, hmq := f.hmq ++ [⟨f.hmdest, v, 0⟩] })))
      ∧ (∀ f, s.func fn = f → (64 ≤ f.hmq.length ∨ f.hmdest.toNat / 2 ^ 24 % 2 ^ 8 ≠ 0 ∨ s.fnHas fn (f.hmdest.toNat % 2 ^ 12) = false) →
        ∃ t, exec (.hmdataWrite fn v) s = .next t ∧ (t.func fn).hmq = f.hmq ∧ (t.func fn).hmdrop.toNat = min (2 ^ 32 - 1) (f.hmdrop.toNat + 1)
          ∧ t.net = s.net ∧ t.mem = s.mem)
      ∧ (∀ d n rest, (s.func fn).hmq = ⟨d, v, n⟩ :: rest → (∀ x ∈ s.net, x.dst = d.toNat % 2 ^ 12 → ∀ r l c m, x.body = .send r l c m → r.cid ≠ hostCid + fn) → ∃ r m, exec (.hostMessageSend fn) s
          = .next ((s.onFunc fn (fun f => { f with hmq := rest })).send (0xFFE + fn % 2) (d.toNat % 2 ^ 12) (.send r (d.toNat / 2 ^ 12 % 16) 0 m))
        ∧ m.data = v ∧ m.hdr.toNat = (0xFFE + fn % 2) * 2 ^ 52 + 6 * 2 ^ 44 + d.toNat / 2 ^ 16 % 2 ^ 8 * 2 ^ 32 + d.toNat / 2 ^ 32)
      ∧ (∀ r key, x.toNat < 2 ^ 48 → rangeFor (s.part (s.fnPart fn)).table x.toNat = some r → s.severed (hubOfFn fn) (homeInRange r x.toNat) = false →
        padKey key = false → s.MemOk → size ≤ 8 →
        (s.translate (vkey (spaceOf (s.fnPart fn) 0) x) true = .ok key →
            (s.agentFree (postedCid fn) key size = true → ∃ t, exec (.hostPostedWrite fn x size v) s = .next t
              ∧ t.mem.nat key size = v.toNat % 256 ^ size ∧ s.mem.SameOutside t.mem key size)
            ∧ (s.agentFree (postedCid fn) key size = false → ∃ t h r, exec (.hostPostedWrite fn x size v) s = .next t ∧ t.mem = s.mem
              ∧ t.net = s.net ++ [⟨h, h, .req r⟩] ∧ r.cid = postedCid fn ∧ ∀ g, s.agentBehind (postedCid fn) = some g → h = g)
            ∧ (s.agentFree (cxlCid fn) key size = false → ∃ t h r, exec (.cxlMemWrite fn x size v) s = .next t ∧ t.mem = s.mem
              ∧ t.net = s.net ++ [⟨h, h, .req r⟩] ∧ r.cid = cxlCid fn ∧ (t.func fn).readData = (s.func fn).readData)
            ∧ (s.agentFree (cxlCid fn) key size = true → ∃ t, exec (.cxlMemWrite fn x size v) s = .next t ∧ t.mem.nat key size = v.toNat % 256 ^ size
              ∧ s.mem.SameOutside t.mem key size ∧ (t.func fn).readData = (s.func fn).readData ++ [(0, false)]))
          ∧ (s.translate (vkey (spaceOf (s.fnPart fn) 0) x) false = .ok key → ∃ t, exec (.hostRead fn x size) s = .next t ∧ t.mem = s.mem
            ∧ (t.func fn).readData = (s.func fn).readData ++ [(BitVec.ofNat 64 (s.mem.nat key size), false)]))
      ∧ (s.hostKey fn x true = none → (∃ t, exec (.hostPostedWrite fn x size v) s = .next t ∧ t.mem = s.mem ∧ (t.func fn).hbada = BitVec.ofNat 48 x.toNat
            ∧ (t.func fn).hbadw.toNat = min (2 ^ 32 - 1) ((s.func fn).hbadw.toNat + 1) ∧ (t.func fn).msix = (s.func fn).msix + 1)
          ∧ (∃ t, exec (.cxlMemWrite fn x size v) s = .next t ∧ t.mem = s.mem ∧ (t.func fn).readData = (s.func fn).readData ++ [(0, true)]))
      ∧ (s.hostKey fn x false = none → ∃ t, exec (.hostRead fn x size) s = .next t ∧ t.mem = s.mem
          ∧ (t.func fn).readData = (s.func fn).readData ++ [(BitVec.ofNat 64 (2 ^ (8 * size) - 1), true)] ∧ (t.func fn).hbada = BitVec.ofNat 48 x.toNat)
      ∧ (v.toNat % 2 ^ 8 = s.fnPart fn → ∃ t, exec (.hostRegisterWrite fn 0x18 v) s = .next t ∧ t.mem = s.mem
        ∧ (t.func fn).gangPart = BitVec.ofNat 8 v.toNat
        ∧ t.agenda = (if v.toNat / 2 ^ 8 % 4 = 1 then [.event (.gangStop (s.fnPart fn))] else if v.toNat / 2 ^ 8 % 4 = 2 then [.event (.gangRelease (s.fnPart fn))]
          else if v.toNat / 2 ^ 8 % 4 = 3 then [.event (.gangCancel (s.fnPart fn))] else []) ++ s.agenda)
      ∧ (v.toNat % 2 ^ 8 ≠ s.fnPart fn → exec (.hostRegisterWrite fn 0x18 v) s = .next s)
      ∧ exec (.hostRegisterWrite fn 0x30 v) s = .next (s.onFunc fn (fun f => { f with hmdest := v }))
      ∧ (∀ r : Nat × Word, r ∈ [(0x00, (s.func fn).launchw), (0x08, BitVec.ofNat 64 s.ready.toNat),
          (0x10, BitVec.ofNat 64 ((s.func fn).bootErr.toNat * 16 + (s.func fn).bootSt.toNat)), (0x18, BitVec.ofNat 64 (s.func fn).gangPart.toNat),
          (0x28, BitVec.ofNat 64 ((s.part (s.fnPart fn)).idle / 1000000)), (0x30, (s.func fn).hmdest), (0x38, (s.func fn).hmdata),
          (0x50, BitVec.ofNat 64 (s.func fn).hbada.toNat), (0x100, BitVec.ofNat 64 (s.func fn).dbgsel.toNat),
          (0x138, BitVec.ofNat 64 (s.func fn).dbgreg.toNat)] →
        s.readBar fn r.1 = .next (s.onFunc fn (fun f => { f with readData := f.readData ++ [(r.2, false)] })))
      ∧ exec (.hostRegisterWrite fn 0x138 v) s = .next (s.onFunc fn (fun f => { f with dbgreg := BitVec.ofNat 18 v.toNat })))

/-- DEBUG AND TRACE (R392 to R400): DEBUG_STOP holds a core until DEBUG_RESUME, DEBUG_STEP lets one context of a stopped core go on for one
packet; DBGDATA reads and writes a stopped core's registers, DBGCTL and BKPTn read and write as they stand; TRACE_RECORD_WRITE sends the
oldest record, which is written at its home in the order sent, and one that finds no translation there halts tracing, with every later
one lost.

The model's choices: what DBGDATA writes (log 40), the value read of a number, a lane or a port that R392 does not define (log 5), and
the moment at which a sent record arrives (log 103). -/
def Obligations.DebugAndTrace : Prop :=
  ∀ (s : State) (core fn : Nat) (v : Word),
    let d := (s.core core).dbg
    ((d.stopped = false ∨ d.stepping ≠ none) → ∃ t, exec (.debugStop core) s = .next t ∧ (t.core core).dbg = { d with stopped := true, why := 1, ctx := 0, stepping := none }
        ∧ t.mem = s.mem ∧ t.net = s.net ∧ ∀ cid, (t.ctx cid).th.pc = (s.ctx cid).th.pc ∧ (t.ctx cid).th.gpr = (s.ctx cid).th.gpr)
      ∧ (d.stopped = true → d.stepping = none → exec (.debugStop core) s = .next s)
      ∧ exec (.debugResume core) s = .next (s.onCore core (fun c => { c with dbg := { c.dbg with stopped := false, stepping := none } }))
      ∧ (∀ n, exec (.debugStep core n) s = .next (s.onCore core (fun c => { c with dbg := { c.dbg with
          stepping := if c.dbg.stopped then some n.toNat else none } })))
      ∧ (∀ cid num, s.isFn fn = true → s.fnHas fn core = true → (s.func fn).dbgsel.toNat = core → d.stopped = true → cid = core * 16 + (s.func fn).dbgreg.toNat / 2 ^ 12 % 16 →
        num = (s.func fn).dbgreg.toNat % 2 ^ 12 →
        ((s.func fn).dbgreg.toNat / 2 ^ 16 = 1 →
            exec (.dbgdataAccess fn none) s = .next (s.onFunc fn (fun f => { f with readData := f.readData ++ [(s.sysRead cid num, false)] }))
              ∧ exec (.dbgdataAccess fn (some v)) s = .next (s.sysWrite cid num v))
          ∧ ((s.func fn).dbgreg.toNat / 2 ^ 16 = 0 → num < 16 →
            (∀ w (h : num < 16), (s.ctx cid).view ⟨num, h⟩ = some w →
              exec (.dbgdataAccess fn none) s = .next (s.onFunc fn (fun f => { f with readData := f.readData ++ [(w, false)] })))
            ∧ ∃ t, exec (.dbgdataAccess fn (some v)) s = .next t ∧ t.mem = s.mem ∧ ∀ h : num < 16, (t.ctx cid).view ⟨num, h⟩ = some v))
      ∧ (∀ w, s.isFn fn = true → s.fnHas fn core = true → (s.func fn).dbgsel.toNat = core → d.stopped = false → (s.func fn).dbgreg.toNat / 2 ^ 16 ≠ 2 →
        exec (.dbgdataAccess fn none) s = .next (s.onFunc fn (fun f => { f with readData := f.readData ++ [(BitVec.allOnes 64, false)] }))
          ∧ exec (.dbgdataAccess fn (some w)) s = .next s)
      ∧ (∀ r rest x space, (s.core core).trace = r :: rest →
        space = spaceOf (s.partOf (dieOf core)) ((s.core core).trcctl.toNat / 2 ^ 48) →
        x = BitVec.ofNat 64 ((s.core core).trcctl.toNat / 2 ^ 16 % 2 ^ 32 * 2 ^ 16 + 32 * ((s.core core).trclost.toNat / 2 ^ 32)) →
        ∃ t, exec (.traceRecordWrite core) s = .next t ∧ (t.core core).trace = rest ∧ t.mem = s.mem
          ∧ (t.core core).traceNet = (s.core core).traceNet ++ [⟨r, (s.core core).trclost.toNat / 2 ^ 32, vkey space x, .sent⟩]
          ∧ (t.core core).trclost.toNat / 2 ^ 32 = ((s.core core).trclost.toNat / 2 ^ 32 + 1)
            % (2048 * 2 ^ ((s.core core).trcctl.toNat / 2 ^ 12 % 16))
          ∧ (t.core core).trclost.toNat % 2 ^ 32 = (s.core core).trclost.toNat % 2 ^ 32)
      ∧ ((s.core core).trace = [] → exec (.traceRecordWrite core) s = .next s)
      ∧ (∀ r off dest rest p, (s.core core).traceNet = ⟨r, off, dest, .sent⟩ :: rest → (∀ e ∈ rest, e.st = .sent) →
        (s.core core).trcctl.getLsbD 9 = false → s.MemOk →
        let t := s.traceStep core
        (s.translate dest true = .ok p → padKey p = false → s.agentFree (traceCid core) p 32 = true →
            (t.core core).traceNet = rest ∧ s.mem.SameOutside t.mem p 32
              ∧ t.mem.nat p 8 = (r.kind % 16 * 2 ^ 60 + r.ctx % 16 * 2 ^ 56 + r.seq.toNat * 2 ^ 48 + r.pc.toNat / 4 * 4 + (if r.gap then 2 else 0))
              ∧ t.mem.nat (p + 8) 8 = r.cyc % 2 ^ 64 ∧ t.mem.nat (p + 16) 8 = r.a.toNat ∧ t.mem.nat (p + 24) 8 = r.b.toNat)
          ∧ (s.translate dest true = .ok p → padKey p = false → s.agentFree (traceCid core) p 32 = false →
            t.mem = s.mem ∧ (t.core core).traceNet = rest
              ∧ ∃ h q, t.net = s.net ++ [⟨h, h, .req q⟩] ∧ q.cid = traceCid core ∧ ∀ g, s.agentBehind (traceCid core) = some g → h = g)
          ∧ (∀ e, s.translate dest true = .error e → t.mem = s.mem ∧ (t.core core).traceNet = ⟨r, off, dest, .failed⟩ :: rest))
      ∧ (∀ r off dest rest, (s.core core).traceNet = ⟨r, off, dest, .failed⟩ :: rest → (∀ e ∈ rest, e.st = .sent) →
        ∃ t, exec (.traceFault core) s = .next t ∧ (t.core core).trace = [] ∧ (t.core core).traceNet = rest ∧ t.mem = s.mem
          ∧ (t.core core).trcctl.getLsbD 11 = false ∧ (t.core core).trcctl.getLsbD 9 = true
          ∧ (t.core core).trclost.toNat / 2 ^ 32 = off % 2 ^ 32
          ∧ (t.core core).trclost.toNat % 2 ^ 32
            = min (2 ^ 32 - 1) ((s.core core).trclost.toNat % 2 ^ 32 + (1 + rest.length) + (s.core core).trace.length)
          ∧ (((s.core core).delegq.filter (fun q => q.src == none)).length < 16 →
            (t.core core).delegq = (s.core core).delegq ++ [⟨none, .traceHalted, .async, 0, (t.core core).trclost⟩]))
      ∧ ((∀ e ∈ (s.core core).traceNet, e.st ≠ .failed) → exec (.traceFault core) s = .next s)
      ∧ (s.isFn fn = true → s.fnHas fn core = true → (s.func fn).dbgsel.toNat = core →
        s.readBar fn 0x108 = .next (s.onFunc fn (fun f => { f with readData := f.readData ++
            [(BitVec.ofNat 64 (d.stepCtx.toNat * 16 + (if d.claim then 1 else 0)), false)] }))
          ∧ (v.toNat / 2 ^ 8 % 4 = 0 → exec (.hostRegisterWrite fn 0x108 v) s = .next (s.onCore core (fun c => { c with dbg := { c.dbg with
            claim := v.getLsbD 0, stepCtx := BitVec.ofNat 4 (v.toNat / 2 ^ 4) } })))
          ∧ ∀ k, k < 4 → s.readBar fn (0x118 + 8 * k) = .next (s.onFunc fn (fun f => { f with readData := f.readData ++ [(d.bkpt.get k 0, false)] }))
            ∧ ∃ t, exec (.hostRegisterWrite fn (0x118 + 8 * k) v) s = .next t ∧ t.mem = s.mem
              ∧ ((t.core core).dbg.bkpt.get k 0).toNat / 2 ^ 61 = v.toNat / 2 ^ 61
              ∧ ((t.core core).dbg.bkpt.get k 0).toNat % 2 ^ 52 / 4 = v.toNat % 2 ^ 52 / 4)


/-! ### Vector -/

/-- VECTOR INSTRUCTIONS (R281 to R285, R293, R296, R297): each takes its scalar operands, debits its class's cost and enters the siding's
queue, and the thread goes on at PC + 4 without waiting for it; with a full queue or too small a budget it waits and has popped and
debited nothing; a bad address or element raises its cause. -/
def Obligations.VectorInstructionsEnterTheQueue : Prop :=
  ∀ (i : Instr) (f : VecForm) (s u : State) (x y : Word), vecForm i = some f → s.operands f.a f.b .zr = .ok u x y →
    (s.VecClear i f x y → s.Signed i false →
        exec i s = .next (s.ended i ((u.debit (s.costOf f.e)).onCore s.here (fun c =>
          { c with vq := c.vq ++ [⟨s.cur, s.seqNow, i, x, y, s.th.fpmode, 0⟩] }))))
      ∧ (f.al = 0 → f.el = none → 16 ≤ (s.core s.here).vq.length →
        exec i s = .next (s.withMe (fun c => { c with run := .waiting .vspace })))
      ∧ (f.al = 0 → f.el = none → (s.core s.here).vq.length < 16 → s.unbudgeted s.cur = false →
        s.th.ebudget.toNat < (s.core s.here).ecost.toNat / 2 ^ (16 * f.e.toNat) % 2 ^ 16 →
        exec i s = .next (s.withMe (fun c => { c with run := .waiting (.energy (s.costOf f.e)) })))
      ∧ (f.al ≠ 0 → s.me.barred = none → x.toNat % f.al ≠ 0 → exec i s = .next (s.trap .misaligned x))
      ∧ (f.al ≠ 0 → s.me.barred = none → x.toNat % f.al = 0 → (x.toNat < 2 ^ 63 ∨ x.toNat / 2 ^ 19 % 2 ^ 12 ≠ s.here) →
        exec i s = .next (s.trap .badAddress x))
      ∧ (∀ t, f.el = some t → t.count ≤ y.toNat → exec i s = .next (s.trap .badAddress y))
      ∧ ((u.debit (s.costOf f.e)).mem = u.mem ∧ (s.unbudgeted s.cur = false → u.unbudgeted u.cur = false → u.cur = s.cur →
          (u.debit (s.costOf f.e)).th.ebudget = u.th.ebudget - BitVec.ofNat 32 (s.costOf f.e)))

/-- WHAT VECTOR COMMANDS COMPUTE (R265 to R268, R270, R274, R280, R286 to R292, R296, R298). A rounded floating-point operation gives each
active element, where the exact result is a number of the type other than 0, that number, and raises nothing when this holds of
every active one; a result that is no number of the type raises NX, and one beyond the range is an infinity with OF under
nearest-even; a NaN operand gives a quiet NaN, a signalling one raises NV; invalid operands give the default NaN with NV, poles an
infinity with DZ; inactive elements stay. Minimum, maximum, sign operations, comparisons and conversions follow their tables,
reductions of exact sums, or of numbers by MIN and MAX, give that to every element; moves, integer comparisons, absolute values and
masks the same, as the commands write them in registers.

VECTOR COMMANDS ARE PERFORMED (R267, R280, R281, R289, R294 to R300): VECTOR_COMPLETE performs the oldest command of a context, merges
its flags and takes it off the queue; an integer operation writes each active element of its destination and no other element; a
unit-stride, strided, gathering or scattering access moves each active element between its register and memory, of two stores to one
address the higher one remaining; VLDK and VSTK move a mask; VEXT delivers its element; VECTOR_FAULT reports the first element that
cannot be accessed. While the cluster's clock stands nothing is done (R389).

The model's choice: VLDK and VSTK in banks that are down give an element fault (log 35, DEDUCED). -/
def Obligations.VectorCommandsArePerformed : Prop :=
  (∀ (i : Instr) (rm : BitVec 2) (x y : Word) (th : Thread),
    let r := vregs i rm x y th
    (∀ (q : FpForm) (w : Fmt), fpForm i = some q → q.ty.fmt = some w →
        let el (v : BitVec 3) (j : Nat) : Nat := th.el q.ty v j
        let num (v : BitVec 3) (j : Nat) : Option Rat := fpNum w (el v j)
        let out (j : Nat) : Nat := r.1.el q.ty q.d j
        { r.1 with vreg := th.vreg } = th
          ∧ (∀ j, j < q.ty.count → th.active q.m j = false → out j = el q.d j)
          ∧ (∀ j, j < q.ty.count → th.active q.m j = true →
            (∀ a b c z, num q.a j = some a → num q.b j = some b → num q.c j = some c → fpExact i a b c z →
                (∀ n, z ≠ 0 → n < 2 ^ w.width → fpNum w n = some z → out j = n)
                  ∧ ((∀ n, fpNum w n ≠ some z) → r.2.getLsbD 0 = true)
                  ∧ (rm = 0 → 2 ^ (2 ^ (w.e - 1)) ≤ z ∨ z ≤ -2 ^ (2 ^ (w.e - 1)) →
                    out j = fpInf w (decide (z < 0)) ∧ r.2.getLsbD 2 = true))
              ∧ ((fpNan w (el q.a j) ∨ fpNan w (el q.b j) ∨ fpNan w (el q.c j)) → fpQuiet w (out j))
              ∧ (∀ v ∈ [q.a, q.b, q.c], fpNan w (el v j) → ¬ fpQuiet w (el v j) → r.2.getLsbD 4 = true)
              ∧ (fpInvalid i w (el q.a j) (el q.b j) → out j = fpDefault w ∧ r.2.getLsbD 4 = true)
              ∧ (∀ s, fpPole i w (el q.a j) (el q.b j) s → out j = fpInf w s ∧ r.2.getLsbD 3 = true))
          ∧ ((∀ j, j < q.ty.count → th.active q.m j = true → ∃ a b c z n, num q.a j = some a ∧ num q.b j = some b ∧ num q.c j = some c
            ∧ fpExact i a b c z ∧ z ≠ 0 ∧ n < 2 ^ w.width ∧ fpNum w n = some z) → r.2 = 0))
      ∧ (∀ (d a b m : BitVec 3) (ty : VType) (e : BitVec 2) (w : Fmt) (j : Nat), ty.fmt = some w → j < ty.count → th.active m j = true →
        let p := th.el ty a j
        let q := th.el ty b j
        (i = .vminFp d a b m ty e ∨ i = .vmaxFp d a b m ty e → ∀ u v, fpNum w p = some u → fpNum w q = some v →
            r.1.el ty d j = if u < v ∨ (u = v ∧ fpNeg w p = true) then (if i = .vminFp d a b m ty e then p else q)
              else (if i = .vminFp d a b m ty e then q else p))
          ∧ (i = .vabsFp d a m ty e → ¬ fpNan w p → r.1.el ty d j = p % 2 ^ (w.e + w.f))
          ∧ (i = .vnegFp d a m ty e → ¬ fpNan w p → r.1.el ty d j = (p + 2 ^ (w.e + w.f)) % 2 ^ w.width))
      ∧ (∀ (kd a b m k : BitVec 3) (ty : VType) (e : BitVec 2), i = .vcmpFp kd a b m k ty e ∨ i = .vcmpInt kd a b m k ty e →
        { r.1 with kreg := th.kreg } = th ∧ ∀ j, j < 64 →
          let p := th.el ty a j
          let q := th.el ty b j
          let g := (r.1.kreg.get kd.toNat 0).getLsbD j
          (ty.count ≤ j ∨ th.active m j = false → g = false)
            ∧ (j < ty.count → th.active m j = true →
              (i = .vcmpInt kd a b m k ty e → (g = true ↔ cmpRel k.toNat (elInt ty p) (elInt ty q)))
                ∧ (i = .vcmpFp kd a b m k ty e → ∀ w, ty.fmt = some w →
                  (∀ u v, fpNum w p = some u → fpNum w q = some v → (g = true ↔ cmpRel k.toNat u v))
                    ∧ (fpNan w p ∨ fpNan w q → (g = true ↔ k = 1 ∨ k = 6) ∧ (2 ≤ k.toNat → k.toNat ≤ 5 → r.2.getLsbD 4 = true)))))
      ∧ (∀ (d a m : BitVec 3) (src ty : VType) (e : BitVec 2) (j : Nat), i = .vcvt d a src m ty e → j < ty.count → th.active m j = true →
        let p := th.el src a j
        let o := r.1.el ty d j
        (src.count ≤ j → o = 0)
          ∧ (j < src.count →
            (∀ w g z n, src.fmt = some w → ty.fmt = some g → fpNum w p = some z → z ≠ 0 → n < 2 ^ g.width → fpNum g n = some z → o = n)
              ∧ (∀ w, src.fmt = some w → ty.fmt = none →
                (∀ z : Int, fpNum w p = some (z : Rat) → ty.lo ≤ z → z ≤ ty.hi → elInt ty o = z)
                  ∧ (∀ z : Rat, fpNum w p = some z → z ≤ (ty.lo : Rat) - 1 → elInt ty o = ty.lo ∧ r.2.getLsbD 4 = true)
                  ∧ (∀ z : Rat, fpNum w p = some z → (ty.hi : Rat) + 1 ≤ z → elInt ty o = ty.hi ∧ r.2.getLsbD 4 = true)
                  ∧ (fpNan w p → o = 0 ∧ r.2.getLsbD 4 = true))
              ∧ (src.fmt = none →
                (∀ g n, ty.fmt = some g → elInt src p ≠ 0 → n < 2 ^ g.width → fpNum g n = some (elInt src p : Rat) → o = n)
                  ∧ (ty.fmt = none → o = (elInt src p % 2 ^ ty.bits).toNat))))
      ∧ (∀ (d a m : BitVec 3) (o : BitVec 2) (ty : VType) (e : BitVec 2) (w : Fmt), i = .vredFp d a m o ty e → ty.fmt = some w →
        let on := (List.range ty.count).filter (fun j => th.active m j)
        (∀ z : Nat → Int, o = 0 → (∀ j ∈ on, fpNum w (th.el ty a j) = some (z j : Rat)) → (on.map (fun j => (z j).natAbs)).sum ≤ 2 ^ w.f →
            r.2 = 0 ∧ ∀ j, j < ty.count → fpNum w (r.1.el ty d j) = some ((on.map z).sum : Rat))
          ∧ (∀ v : Nat → Rat, o = 1 ∨ o = 2 → on ≠ [] → (∀ j ∈ on, fpNum w (th.el ty a j) = some (v j)) →
            ∃ k ∈ on, (∀ j, j < ty.count → r.1.el ty d j = th.el ty a k) ∧ ∀ j ∈ on, if o = 1 then v j ≤ v k else v k ≤ v j))
      ∧ (∀ (d a m : BitVec 3) (o : BitVec 2) (ty : VType) (e : BitVec 2), i = .vredInt d a m o ty e → ty.fmt = none →
        let on := (List.range ty.count).filter (fun j => th.active m j)
        (o = 0 → ∀ j, j < ty.count → r.1.el ty d j = (on.map (fun k => th.el ty a k)).sum % 2 ^ ty.bits)
          ∧ (o = 1 ∨ o = 2 → on ≠ [] → ∃ k ∈ on, (∀ j, j < ty.count → r.1.el ty d j = th.el ty a k)
            ∧ ∀ j ∈ on, if o = 1 then elInt ty (th.el ty a j) ≤ elInt ty (th.el ty a k) else elInt ty (th.el ty a k) ≤ elInt ty (th.el ty a j)))
      ∧ (∀ (d a m : BitVec 3) (ty : VType) (e : BitVec 2) (j : Nat), j < ty.count → th.active m j = true → ty.fmt = none →
        (i = .vabsInt d a m ty e → r.1.el ty d j = (elInt ty (th.el ty a j)).natAbs % 2 ^ ty.bits)
          ∧ (i = .vnegInt d a m ty e → r.1.el ty d j = (-elInt ty (th.el ty a j) % 2 ^ ty.bits).toNat))
      ∧ (∀ d ty f, vecMove th x y i = some (d, ty, f) →
        r.2 = 0 ∧ { r.1 with vreg := th.vreg } = th ∧ ∀ j, j < ty.count → r.1.el ty d j = f j)
      ∧ (∀ (d m : BitVec 3) (ty : VType) (e : BitVec 2) (j n : Nat), j < ty.count →
        (i = .viota d m ty e ∧ th.active m j = true ∧ n = j
          ∨ i = .vpopk d m ty e ∧ n = ((List.range ty.count).filter (fun k => (th.kreg.get (m.toNat - 1) 0).getLsbD k)).length) →
        match ty.fmt with
        | some w => fpNum w (r.1.el ty d j) = some (n : Rat)
        | none => r.1.el ty d j = n)
      ∧ (∀ k g e, i = .vsetk k g e → r = ({ th with kreg := th.kreg.set k.toNat x }, 0))
      ∧ (∀ k s e, i = .vmovk k s e → r = ({ th with kreg := th.kreg.set k.toNat (th.kreg.get s.toNat 0) }, 0)))
    ∧ (∀ (s : State) (core k : Nat) (c : VCmd), s.vcmdAt core k = some c → c.cid < 65536 → (s.ctx c.cid).th.saved = false → (s.core core).atoms = [] →
    let th := (s.ctx c.cid).th
    ((s.cluster (clusterOf core)).stopped = true → exec (.vectorComplete core k) s = .next s ∧ exec (.vectorFault core k) s = .next s)
    ∧ ((s.cluster (clusterOf core)).stopped = false →
      (vmem c.i c.a c.b th = none → (∀ p q e, c.i ≠ .vldk p q e ∧ c.i ≠ .vstk p q e) → (∀ p q t e, c.i ≠ .vext p q t e) →
        ∃ t, exec (.vectorComplete core k) s = .next t ∧ t.mem = s.mem ∧ (t.core core).vq = (s.core core).vq.eraseIdx k
          ∧ (t.ctx c.cid).th = { (vregs c.i c.rm c.a c.b th).1 with
              fpflags := (vregs c.i c.rm c.a c.b th).1.fpflags ||| (vregs c.i c.rm c.a c.b th).2, vlive := true })
      ∧ (∀ q : VecInt, vecInt c.i = some q → q.ty ∈ [.i8, .i16, .i32, .i64, .n32] →
        let t := (vregs c.i c.rm c.a c.b th).1
        (vregs c.i c.rm c.a c.b th).2 = 0 ∧ { t with vreg := th.vreg } = th
          ∧ ∀ j, j < q.ty.count → t.el q.ty q.d j = if th.active q.m j then q.f (th.el q.ty q.a j) (th.el q.ty q.b j) else th.el q.ty q.d j)
      ∧ (∀ d b ty e, c.i = .vext d b ty e →
        ∃ t h, exec (.vectorComplete core k) s = .next t ∧ t.mem = s.mem ∧ (t.ctx c.cid).th = { th with vlive := true, vq := th.vq ++ [h] }
          ∧ h.data.toNat % 2 ^ ty.bits = th.el ty d c.b.toNat % 2 ^ ty.bits)
      ∧ ((s.core core).powered = true → (s.core core).groups = [] → (s.core core).badWords = [] → (s.core core).softWords = [] → s.MemOk →
        c.start = 0 → coreOf c.cid = core →
        (∀ d g q v m ty e (ad : Nat → Word),
          (c.i = .vld d g m ty e ∧ ∀ j, ad j = c.a + BitVec.ofNat 64 (j * ty.bytes))
            ∨ (c.i = .vlds d g q m ty e ∧ ∀ j, ad j = c.a + BitVec.ofNat 64 j * c.b)
            ∨ (c.i = .vgath d g v m ty e ∧ ∀ j, ad j = c.a + BitVec.ofNat 64 (th.el .n32 v j)) →
          (∀ j, j < ty.count → th.active m j = true → padBytes core (ad j) ty.bytes ∧ (ad j).toNat % ty.bytes = 0) →
            ∃ t, exec (.vectorComplete core k) s = .next t ∧ t.mem = s.mem ∧ (t.core core).vq = (s.core core).vq.eraseIdx k
              ∧ ∀ j, j < ty.count → (t.ctx c.cid).th.el ty d j = if th.active m j then s.mem.nat (ad j).toNat ty.bytes else th.el ty d j)
          ∧ (∀ d g q v m ty e (ad : Nat → Word),
          (c.i = .vst d g m ty e ∧ ∀ j, ad j = c.a + BitVec.ofNat 64 (j * ty.bytes))
            ∨ (c.i = .vsts d g q m ty e ∧ ∀ j, ad j = c.a + BitVec.ofNat 64 j * c.b)
            ∨ (c.i = .vscat d g v m ty e ∧ ∀ j, ad j = c.a + BitVec.ofNat 64 (th.el .n32 v j)) →
          (∀ j, j < ty.count → th.active m j = true → padBytes core (ad j) ty.bytes ∧ (ad j).toNat % ty.bytes = 0) →
            ∃ t, exec (.vectorComplete core k) s = .next t ∧ (t.ctx c.cid).th.vreg = th.vreg ∧ (t.core core).vq = (s.core core).vq.eraseIdx k
              ∧ (∀ j, j < ty.count → th.active m j = true → (∀ l, j < l → l < ty.count → th.active m l = true → ad l ≠ ad j) →
                t.mem.nat (ad j).toNat ty.bytes = th.el ty d j)
              ∧ ∀ a, (∀ j, j < ty.count → th.active m j = true → a < (ad j).toNat ∨ (ad j).toNat + ty.bytes ≤ a) → t.mem.read a = s.mem.read a)
          ∧ (∀ p g e, padBytes core c.a 8 → c.a.toNat % 8 = 0 →
            (c.i = .vldk p g e → ∃ t, exec (.vectorComplete core k) s = .next t ∧ t.mem = s.mem
                ∧ (t.ctx c.cid).th = { th with kreg := th.kreg.set p.toNat (BitVec.ofNat 64 (s.mem.nat c.a.toNat 8)), vlive := true })
              ∧ (c.i = .vstk p g e → ∃ t, exec (.vectorComplete core k) s = .next t ∧ (t.ctx c.cid).th = { th with vlive := true }
                ∧ t.mem.nat c.a.toNat 8 = (th.kreg.get p.toNat 0).toNat ∧ s.mem.SameOutside t.mem c.a.toNat 8)))
      ∧ ((s.core core).powered = false → ∀ p q e, c.i = .vldk p q e ∨ c.i = .vstk p q e → th.inTrap = false →
        ∃ t, exec (.vectorFault core k) s = .next t ∧ (t.core core).vq = (s.core core).vq.eraseIdx k ∧ t.mem = s.mem
          ∧ (t.ctx c.cid).faults = insertFault ⟨6, 2, none, c.seq, c.a, .vec { c with start := 0 }⟩ (s.ctx c.cid).faults)))
end

