-- ==== Sys2Proof/Laws/State.lean ====
section
/-! SUPPORT. What each update of the state leaves alone, one lemma per field and update; what a table, a context, a core
and a die read after an update; and the fields of the state after reset. -/

namespace Sys2Proof

variable {α : Type}

/-- A table reads back what was written at the same key. -/
@[simp] theorem Tab.get_set_self (t : Tab α) (k : Nat) (v d : α) : (t.set k v).get k d = v := by
  induction t with
  | nil => simp [Tab.set, Tab.get]
  | cons e rest ih =>
    obtain ⟨k', v'⟩ := e
    by_cases h : k' = k
    · simp [Tab.set, Tab.get, h]
    · by_cases h2 : k < k'
      · simp [Tab.set, Tab.get, h, h2]
      · simp [Tab.set, Tab.get, h, h2, ih]

/-- A table keeps what stands at every other key. -/
theorem Tab.get_set_ne (t : Tab α) (k j : Nat) (v d : α) (hj : j ≠ k) : (t.set k v).get j d = t.get j d := by
  have hk : k ≠ j := fun h => hj h.symm
  induction t with
  | nil => simp [Tab.set, Tab.get, hk]
  | cons e rest ih =>
    obtain ⟨k', v'⟩ := e
    by_cases h : k' = k
    · subst h; simp [Tab.set, Tab.get, hk]
    · by_cases h2 : k < k'
      · simp [Tab.set, Tab.get, h, h2, hk]
      · by_cases h3 : k' = j
        · subst h3; simp [Tab.set, Tab.get, h, h2]
        · simp [Tab.set, Tab.get, h, h2, h3, ih]

/-- Reading a table after one write. -/
theorem Tab.get_set (t : Tab α) (k j : Nat) (v d : α) : (t.set k v).get j d = if j = k then v else t.get j d := by
  by_cases h : j = k
  · subst h; simp
  · simp [h, Tab.get_set_ne]

/-- A table finds what was written at the same key. -/
@[simp] theorem Tab.find_set_self (t : Tab α) (k : Nat) (v : α) : (t.set k v).find k = some v := by
  induction t with
  | nil => simp [Tab.set, Tab.find]
  | cons e rest ih =>
    obtain ⟨k', v'⟩ := e
    by_cases h : k' = k
    · simp [Tab.set, Tab.find, h]
    · by_cases h2 : k < k'
      · simp [Tab.set, Tab.find, h, h2]
      · simp [Tab.set, Tab.find, h, h2, ih]

/-- A table finds at every other key what it found before a write. -/
theorem Tab.find_set_ne (t : Tab α) (k j : Nat) (v : α) (hj : j ≠ k) : (t.set k v).find j = t.find j := by
  have hk : k ≠ j := fun h => hj h.symm
  induction t with
  | nil => simp [Tab.set, Tab.find, hk]
  | cons e rest ih =>
    obtain ⟨k', v'⟩ := e
    by_cases h : k' = k
    · subst h; simp [Tab.set, Tab.find, hk]
    · by_cases h2 : k < k'
      · simp [Tab.set, Tab.find, h, h2, hk]
      · by_cases h3 : k' = j
        · subst h3; simp [Tab.set, Tab.find, h, h2]
        · simp [Tab.set, Tab.find, h, h2, h3, ih]

/-- A removed key is not found. -/
@[simp] theorem Tab.find_del_self (t : Tab α) (k : Nat) : (t.del k).find k = none := by
  induction t with
  | nil => rfl
  | cons e rest ih =>
    obtain ⟨k', v'⟩ := e
    by_cases h : k' = k
    · simpa [Tab.del, List.filter_cons, h] using ih
    · simpa [Tab.del, List.filter_cons, h, Tab.find] using ih

/-- Removing a key leaves every other one. -/
theorem Tab.find_del_ne (t : Tab α) (k j : Nat) (hj : j ≠ k) : (t.del k).find j = t.find j := by
  induction t with
  | nil => rfl
  | cons e rest ih =>
    obtain ⟨k', v'⟩ := e
    by_cases h : k' = k
    · subst h
      have : k' ≠ j := fun h => hj h.symm
      simpa [Tab.del, List.filter_cons, Tab.find, this] using ih
    · by_cases h3 : k' = j
      · subst h3; simp [Tab.del, h, Tab.find]
      · simpa [Tab.del, List.filter_cons, h, Tab.find, h3] using ih

namespace Machine

/-! ### Components after an update -/

theorem State.ctx_setCtx (s : State) (a b : Nat) (c : Ctx) : (s.setCtx a c).ctx b = if b = a then c else s.ctx b :=
  Tab.get_set ..
@[simp] theorem State.ctx_setCtx_self (s : State) (a : Nat) (c : Ctx) : (s.setCtx a c).ctx a = c := Tab.get_set_self ..
theorem State.ctx_setCtx_ne (s : State) (a b : Nat) (c : Ctx) (h : b ≠ a) : (s.setCtx a c).ctx b = s.ctx b :=
  Tab.get_set_ne _ _ _ _ _ h
theorem State.core_setCore (s : State) (a b : Nat) (c : Core) : (s.setCore a c).core b = if b = a then c else s.core b :=
  Tab.get_set ..
@[simp] theorem State.core_setCore_self (s : State) (a : Nat) (c : Core) : (s.setCore a c).core a = c := Tab.get_set_self ..
theorem State.core_setCore_ne (s : State) (a b : Nat) (c : Core) (h : b ≠ a) : (s.setCore a c).core b = s.core b :=
  Tab.get_set_ne _ _ _ _ _ h
@[simp] theorem State.die_setDie_self (s : State) (a : Nat) (d : Die) : (s.setDie a d).die a = d := Tab.get_set_self ..
theorem State.die_setDie_ne (s : State) (a b : Nat) (d : Die) (h : b ≠ a) : (s.setDie a d).die b = s.die b :=
  Tab.get_set_ne _ _ _ _ _ h
@[simp] theorem State.cluster_setCluster_self (s : State) (a : Nat) (c : Cluster) : (s.setCluster a c).cluster a = c :=
  Tab.get_set_self ..
@[simp] theorem State.func_setFunc_self (s : State) (a : Nat) (f : Func) : (s.setFunc a f).func a = f := Tab.get_set_self ..
@[simp] theorem State.peer_setPeer_self (s : State) (a : Nat) (p : PeerPort) : (s.setPeer a p).peer a = p := Tab.get_set_self ..
@[simp] theorem State.part_setPart_self (s : State) (a : Nat) (p : Part) : (s.setPart a p).part a = p := Tab.get_set_self ..

@[simp] theorem State.me_withMe (s : State) (f : Ctx → Ctx) : (s.withMe f).me = f s.me := Tab.get_set_self ..
@[simp] theorem State.th_withMe (s : State) (f : Ctx → Ctx) : (s.withMe f).th = (f s.me).th := congrArg Ctx.th (State.me_withMe s f)
@[simp] theorem State.th_withTh (s : State) (f : Thread → Thread) : (s.withTh f).th = f s.th :=
  congrArg Ctx.th (State.me_withMe s _)
@[simp] theorem State.me_setCore (s : State) (a : Nat) (c : Core) : (s.setCore a c).me = s.me := rfl
@[simp] theorem State.th_setCore (s : State) (a : Nat) (c : Core) : (s.setCore a c).th = s.th := rfl
@[simp] theorem State.me_onCore (s : State) (a : Nat) (f : Core → Core) : (s.onCore a f).me = s.me := rfl
@[simp] theorem State.th_onCore (s : State) (a : Nat) (f : Core → Core) : (s.onCore a f).th = s.th := rfl
@[simp] theorem State.me_send (s : State) (a b : Nat) (m : Body) : (s.send a b m).me = s.me := rfl
@[simp] theorem State.th_send (s : State) (a b : Nat) (m : Body) : (s.send a b m).th = s.th := rfl
@[simp] theorem State.ctx_setCore (s : State) (a b : Nat) (c : Core) : (s.setCore a c).ctx b = s.ctx b := rfl
@[simp] theorem State.ctx_onCore (s : State) (a b : Nat) (f : Core → Core) : (s.onCore a f).ctx b = s.ctx b := rfl
@[simp] theorem State.ctx_send (s : State) (a b k : Nat) (m : Body) : (s.send a b m).ctx k = s.ctx k := rfl
@[simp] theorem State.core_setCtx (s : State) (a b : Nat) (c : Ctx) : (s.setCtx a c).core b = s.core b := rfl
@[simp] theorem State.core_onCtx (s : State) (a b : Nat) (f : Ctx → Ctx) : (s.onCtx a f).core b = s.core b := rfl
@[simp] theorem State.core_withMe (s : State) (b : Nat) (f : Ctx → Ctx) : (s.withMe f).core b = s.core b := rfl
@[simp] theorem State.core_withTh (s : State) (b : Nat) (f : Thread → Thread) : (s.withTh f).core b = s.core b := rfl
@[simp] theorem State.core_send (s : State) (a b k : Nat) (m : Body) : (s.send a b m).core k = s.core k := rfl
@[simp] theorem State.ctx_onCtx_self (s : State) (a : Nat) (f : Ctx → Ctx) : (s.onCtx a f).ctx a = f (s.ctx a) := Tab.get_set_self ..
theorem State.ctx_onCtx_ne (s : State) (a b : Nat) (f : Ctx → Ctx) (h : b ≠ a) : (s.onCtx a f).ctx b = s.ctx b :=
  Tab.get_set_ne _ _ _ _ _ h
@[simp] theorem State.core_onCore_self (s : State) (a : Nat) (f : Core → Core) : (s.onCore a f).core a = f (s.core a) :=
  Tab.get_set_self ..
theorem State.core_onCore_ne (s : State) (a b : Nat) (f : Core → Core) (h : b ≠ a) : (s.onCore a f).core b = s.core b :=
  Tab.get_set_ne _ _ _ _ _ h
@[simp] theorem State.die_onDie_self (s : State) (a : Nat) (f : Die → Die) : (s.onDie a f).die a = f (s.die a) := Tab.get_set_self ..
theorem State.ctx_withMe_ne (s : State) (b : Nat) (f : Ctx → Ctx) (h : b ≠ s.cur) : (s.withMe f).ctx b = s.ctx b :=
  Tab.get_set_ne _ _ _ _ _ h
theorem State.ctx_withTh_ne (s : State) (b : Nat) (f : Thread → Thread) (h : b ≠ s.cur) : (s.withTh f).ctx b = s.ctx b :=
  Tab.get_set_ne _ _ _ _ _ h


/-! ### setCtx -/

@[simp] theorem State.setCtx_cur (s : State) (cid : Nat) (c : Ctx) : (s.setCtx cid c).cur = s.cur := rfl
@[simp] theorem State.setCtx_agenda (s : State) (cid : Nat) (c : Ctx) : (s.setCtx cid c).agenda = s.agenda := rfl
@[simp] theorem State.setCtx_turn (s : State) (cid : Nat) (c : Ctx) : (s.setCtx cid c).turn = s.turn := rfl
@[simp] theorem State.setCtx_mem (s : State) (cid : Nat) (c : Ctx) : (s.setCtx cid c).mem = s.mem := rfl
@[simp] theorem State.setCtx_pages (s : State) (cid : Nat) (c : Ctx) : (s.setCtx cid c).pages = s.pages := rfl
@[simp] theorem State.setCtx_hostLines (s : State) (cid : Nat) (c : Ctx) : (s.setCtx cid c).hostLines = s.hostLines := rfl
@[simp] theorem State.setCtx_cores (s : State) (cid : Nat) (c : Ctx) : (s.setCtx cid c).cores = s.cores := rfl
@[simp] theorem State.setCtx_dies (s : State) (cid : Nat) (c : Ctx) : (s.setCtx cid c).dies = s.dies := rfl
@[simp] theorem State.setCtx_clusters (s : State) (cid : Nat) (c : Ctx) : (s.setCtx cid c).clusters = s.clusters := rfl
@[simp] theorem State.setCtx_parts (s : State) (cid : Nat) (c : Ctx) : (s.setCtx cid c).parts = s.parts := rfl
@[simp] theorem State.setCtx_launches (s : State) (cid : Nat) (c : Ctx) : (s.setCtx cid c).launches = s.launches := rfl
@[simp] theorem State.setCtx_named (s : State) (cid : Nat) (c : Ctx) : (s.setCtx cid c).named = s.named := rfl
@[simp] theorem State.setCtx_now (s : State) (cid : Nat) (c : Ctx) : (s.setCtx cid c).now = s.now := rfl
@[simp] theorem State.setCtx_beat (s : State) (cid : Nat) (c : Ctx) : (s.setCtx cid c).beat = s.beat := rfl
@[simp] theorem State.setCtx_slow (s : State) (cid : Nat) (c : Ctx) : (s.setCtx cid c).slow = s.slow := rfl
@[simp] theorem State.setCtx_net (s : State) (cid : Nat) (c : Ctx) : (s.setCtx cid c).net = s.net := rfl
@[simp] theorem State.setCtx_funcs (s : State) (cid : Nat) (c : Ctx) : (s.setCtx cid c).funcs = s.funcs := rfl
@[simp] theorem State.setCtx_ready (s : State) (cid : Nat) (c : Ctx) : (s.setCtx cid c).ready = s.ready := rfl
@[simp] theorem State.setCtx_whole (s : State) (cid : Nat) (c : Ctx) : (s.setCtx cid c).whole = s.whole := rfl
@[simp] theorem State.setCtx_bootFirmware (s : State) (cid : Nat) (c : Ctx) : (s.setCtx cid c).bootFirmware = s.bootFirmware := rfl
@[simp] theorem State.setCtx_ports (s : State) (cid : Nat) (c : Ctx) : (s.setCtx cid c).ports = s.ports := rfl
@[simp] theorem State.setCtx_device (s : State) (cid : Nat) (c : Ctx) : (s.setCtx cid c).device = s.device := rfl
@[simp] theorem State.setCtx_peers (s : State) (cid : Nat) (c : Ctx) : (s.setCtx cid c).peers = s.peers := rfl
@[simp] theorem State.setCtx_failed (s : State) (cid : Nat) (c : Ctx) : (s.setCtx cid c).failed = s.failed := rfl
@[simp] theorem State.setCtx_offDies (s : State) (cid : Nat) (c : Ctx) : (s.setCtx cid c).offDies = s.offDies := rfl
@[simp] theorem State.setCtx_stamp (s : State) (cid : Nat) (c : Ctx) : (s.setCtx cid c).stamp = s.stamp := rfl

/-! ### setCore -/

@[simp] theorem State.setCore_cur (s : State) (n : Nat) (c : Core) : (s.setCore n c).cur = s.cur := rfl
@[simp] theorem State.setCore_agenda (s : State) (n : Nat) (c : Core) : (s.setCore n c).agenda = s.agenda := rfl
@[simp] theorem State.setCore_turn (s : State) (n : Nat) (c : Core) : (s.setCore n c).turn = s.turn := rfl
@[simp] theorem State.setCore_mem (s : State) (n : Nat) (c : Core) : (s.setCore n c).mem = s.mem := rfl
@[simp] theorem State.setCore_pages (s : State) (n : Nat) (c : Core) : (s.setCore n c).pages = s.pages := rfl
@[simp] theorem State.setCore_hostLines (s : State) (n : Nat) (c : Core) : (s.setCore n c).hostLines = s.hostLines := rfl
@[simp] theorem State.setCore_ctxs (s : State) (n : Nat) (c : Core) : (s.setCore n c).ctxs = s.ctxs := rfl
@[simp] theorem State.setCore_dies (s : State) (n : Nat) (c : Core) : (s.setCore n c).dies = s.dies := rfl
@[simp] theorem State.setCore_clusters (s : State) (n : Nat) (c : Core) : (s.setCore n c).clusters = s.clusters := rfl
@[simp] theorem State.setCore_parts (s : State) (n : Nat) (c : Core) : (s.setCore n c).parts = s.parts := rfl
@[simp] theorem State.setCore_launches (s : State) (n : Nat) (c : Core) : (s.setCore n c).launches = s.launches := rfl
@[simp] theorem State.setCore_named (s : State) (n : Nat) (c : Core) : (s.setCore n c).named = s.named := rfl
@[simp] theorem State.setCore_now (s : State) (n : Nat) (c : Core) : (s.setCore n c).now = s.now := rfl
@[simp] theorem State.setCore_beat (s : State) (n : Nat) (c : Core) : (s.setCore n c).beat = s.beat := rfl
@[simp] theorem State.setCore_slow (s : State) (n : Nat) (c : Core) : (s.setCore n c).slow = s.slow := rfl
@[simp] theorem State.setCore_net (s : State) (n : Nat) (c : Core) : (s.setCore n c).net = s.net := rfl
@[simp] theorem State.setCore_funcs (s : State) (n : Nat) (c : Core) : (s.setCore n c).funcs = s.funcs := rfl
@[simp] theorem State.setCore_ready (s : State) (n : Nat) (c : Core) : (s.setCore n c).ready = s.ready := rfl
@[simp] theorem State.setCore_whole (s : State) (n : Nat) (c : Core) : (s.setCore n c).whole = s.whole := rfl
@[simp] theorem State.setCore_bootFirmware (s : State) (n : Nat) (c : Core) : (s.setCore n c).bootFirmware = s.bootFirmware := rfl
@[simp] theorem State.setCore_ports (s : State) (n : Nat) (c : Core) : (s.setCore n c).ports = s.ports := rfl
@[simp] theorem State.setCore_device (s : State) (n : Nat) (c : Core) : (s.setCore n c).device = s.device := rfl
@[simp] theorem State.setCore_peers (s : State) (n : Nat) (c : Core) : (s.setCore n c).peers = s.peers := rfl
@[simp] theorem State.setCore_failed (s : State) (n : Nat) (c : Core) : (s.setCore n c).failed = s.failed := rfl
@[simp] theorem State.setCore_offDies (s : State) (n : Nat) (c : Core) : (s.setCore n c).offDies = s.offDies := rfl
@[simp] theorem State.setCore_stamp (s : State) (n : Nat) (c : Core) : (s.setCore n c).stamp = s.stamp := rfl

/-! ### setDie -/

@[simp] theorem State.setDie_cur (s : State) (n : Nat) (d : Die) : (s.setDie n d).cur = s.cur := rfl
@[simp] theorem State.setDie_agenda (s : State) (n : Nat) (d : Die) : (s.setDie n d).agenda = s.agenda := rfl
@[simp] theorem State.setDie_turn (s : State) (n : Nat) (d : Die) : (s.setDie n d).turn = s.turn := rfl
@[simp] theorem State.setDie_mem (s : State) (n : Nat) (d : Die) : (s.setDie n d).mem = s.mem := rfl
@[simp] theorem State.setDie_pages (s : State) (n : Nat) (d : Die) : (s.setDie n d).pages = s.pages := rfl
@[simp] theorem State.setDie_hostLines (s : State) (n : Nat) (d : Die) : (s.setDie n d).hostLines = s.hostLines := rfl
@[simp] theorem State.setDie_ctxs (s : State) (n : Nat) (d : Die) : (s.setDie n d).ctxs = s.ctxs := rfl
@[simp] theorem State.setDie_cores (s : State) (n : Nat) (d : Die) : (s.setDie n d).cores = s.cores := rfl
@[simp] theorem State.setDie_clusters (s : State) (n : Nat) (d : Die) : (s.setDie n d).clusters = s.clusters := rfl
@[simp] theorem State.setDie_parts (s : State) (n : Nat) (d : Die) : (s.setDie n d).parts = s.parts := rfl
@[simp] theorem State.setDie_launches (s : State) (n : Nat) (d : Die) : (s.setDie n d).launches = s.launches := rfl
@[simp] theorem State.setDie_named (s : State) (n : Nat) (d : Die) : (s.setDie n d).named = s.named := rfl
@[simp] theorem State.setDie_now (s : State) (n : Nat) (d : Die) : (s.setDie n d).now = s.now := rfl
@[simp] theorem State.setDie_beat (s : State) (n : Nat) (d : Die) : (s.setDie n d).beat = s.beat := rfl
@[simp] theorem State.setDie_slow (s : State) (n : Nat) (d : Die) : (s.setDie n d).slow = s.slow := rfl
@[simp] theorem State.setDie_net (s : State) (n : Nat) (d : Die) : (s.setDie n d).net = s.net := rfl
@[simp] theorem State.setDie_funcs (s : State) (n : Nat) (d : Die) : (s.setDie n d).funcs = s.funcs := rfl
@[simp] theorem State.setDie_ready (s : State) (n : Nat) (d : Die) : (s.setDie n d).ready = s.ready := rfl
@[simp] theorem State.setDie_whole (s : State) (n : Nat) (d : Die) : (s.setDie n d).whole = s.whole := rfl
@[simp] theorem State.setDie_bootFirmware (s : State) (n : Nat) (d : Die) : (s.setDie n d).bootFirmware = s.bootFirmware := rfl
@[simp] theorem State.setDie_ports (s : State) (n : Nat) (d : Die) : (s.setDie n d).ports = s.ports := rfl
@[simp] theorem State.setDie_device (s : State) (n : Nat) (d : Die) : (s.setDie n d).device = s.device := rfl
@[simp] theorem State.setDie_peers (s : State) (n : Nat) (d : Die) : (s.setDie n d).peers = s.peers := rfl
@[simp] theorem State.setDie_failed (s : State) (n : Nat) (d : Die) : (s.setDie n d).failed = s.failed := rfl
@[simp] theorem State.setDie_offDies (s : State) (n : Nat) (d : Die) : (s.setDie n d).offDies = s.offDies := rfl
@[simp] theorem State.setDie_stamp (s : State) (n : Nat) (d : Die) : (s.setDie n d).stamp = s.stamp := rfl

/-! ### setCluster -/

@[simp] theorem State.setCluster_cur (s : State) (n : Nat) (c : Cluster) : (s.setCluster n c).cur = s.cur := rfl
@[simp] theorem State.setCluster_agenda (s : State) (n : Nat) (c : Cluster) : (s.setCluster n c).agenda = s.agenda := rfl
@[simp] theorem State.setCluster_turn (s : State) (n : Nat) (c : Cluster) : (s.setCluster n c).turn = s.turn := rfl
@[simp] theorem State.setCluster_mem (s : State) (n : Nat) (c : Cluster) : (s.setCluster n c).mem = s.mem := rfl
@[simp] theorem State.setCluster_pages (s : State) (n : Nat) (c : Cluster) : (s.setCluster n c).pages = s.pages := rfl
@[simp] theorem State.setCluster_hostLines (s : State) (n : Nat) (c : Cluster) : (s.setCluster n c).hostLines = s.hostLines := rfl
@[simp] theorem State.setCluster_ctxs (s : State) (n : Nat) (c : Cluster) : (s.setCluster n c).ctxs = s.ctxs := rfl
@[simp] theorem State.setCluster_cores (s : State) (n : Nat) (c : Cluster) : (s.setCluster n c).cores = s.cores := rfl
@[simp] theorem State.setCluster_dies (s : State) (n : Nat) (c : Cluster) : (s.setCluster n c).dies = s.dies := rfl
@[simp] theorem State.setCluster_parts (s : State) (n : Nat) (c : Cluster) : (s.setCluster n c).parts = s.parts := rfl
@[simp] theorem State.setCluster_launches (s : State) (n : Nat) (c : Cluster) : (s.setCluster n c).launches = s.launches := rfl
@[simp] theorem State.setCluster_named (s : State) (n : Nat) (c : Cluster) : (s.setCluster n c).named = s.named := rfl
@[simp] theorem State.setCluster_now (s : State) (n : Nat) (c : Cluster) : (s.setCluster n c).now = s.now := rfl
@[simp] theorem State.setCluster_beat (s : State) (n : Nat) (c : Cluster) : (s.setCluster n c).beat = s.beat := rfl
@[simp] theorem State.setCluster_slow (s : State) (n : Nat) (c : Cluster) : (s.setCluster n c).slow = s.slow := rfl
@[simp] theorem State.setCluster_net (s : State) (n : Nat) (c : Cluster) : (s.setCluster n c).net = s.net := rfl
@[simp] theorem State.setCluster_funcs (s : State) (n : Nat) (c : Cluster) : (s.setCluster n c).funcs = s.funcs := rfl
@[simp] theorem State.setCluster_ready (s : State) (n : Nat) (c : Cluster) : (s.setCluster n c).ready = s.ready := rfl
@[simp] theorem State.setCluster_whole (s : State) (n : Nat) (c : Cluster) : (s.setCluster n c).whole = s.whole := rfl
@[simp] theorem State.setCluster_bootFirmware (s : State) (n : Nat) (c : Cluster) : (s.setCluster n c).bootFirmware = s.bootFirmware := rfl
@[simp] theorem State.setCluster_ports (s : State) (n : Nat) (c : Cluster) : (s.setCluster n c).ports = s.ports := rfl
@[simp] theorem State.setCluster_device (s : State) (n : Nat) (c : Cluster) : (s.setCluster n c).device = s.device := rfl
@[simp] theorem State.setCluster_peers (s : State) (n : Nat) (c : Cluster) : (s.setCluster n c).peers = s.peers := rfl
@[simp] theorem State.setCluster_failed (s : State) (n : Nat) (c : Cluster) : (s.setCluster n c).failed = s.failed := rfl
@[simp] theorem State.setCluster_offDies (s : State) (n : Nat) (c : Cluster) : (s.setCluster n c).offDies = s.offDies := rfl
@[simp] theorem State.setCluster_stamp (s : State) (n : Nat) (c : Cluster) : (s.setCluster n c).stamp = s.stamp := rfl

/-! ### setFunc -/

@[simp] theorem State.setFunc_cur (s : State) (n : Nat) (f : Func) : (s.setFunc n f).cur = s.cur := rfl
@[simp] theorem State.setFunc_agenda (s : State) (n : Nat) (f : Func) : (s.setFunc n f).agenda = s.agenda := rfl
@[simp] theorem State.setFunc_turn (s : State) (n : Nat) (f : Func) : (s.setFunc n f).turn = s.turn := rfl
@[simp] theorem State.setFunc_mem (s : State) (n : Nat) (f : Func) : (s.setFunc n f).mem = s.mem := rfl
@[simp] theorem State.setFunc_pages (s : State) (n : Nat) (f : Func) : (s.setFunc n f).pages = s.pages := rfl
@[simp] theorem State.setFunc_hostLines (s : State) (n : Nat) (f : Func) : (s.setFunc n f).hostLines = s.hostLines := rfl
@[simp] theorem State.setFunc_ctxs (s : State) (n : Nat) (f : Func) : (s.setFunc n f).ctxs = s.ctxs := rfl
@[simp] theorem State.setFunc_cores (s : State) (n : Nat) (f : Func) : (s.setFunc n f).cores = s.cores := rfl
@[simp] theorem State.setFunc_dies (s : State) (n : Nat) (f : Func) : (s.setFunc n f).dies = s.dies := rfl
@[simp] theorem State.setFunc_clusters (s : State) (n : Nat) (f : Func) : (s.setFunc n f).clusters = s.clusters := rfl
@[simp] theorem State.setFunc_parts (s : State) (n : Nat) (f : Func) : (s.setFunc n f).parts = s.parts := rfl
@[simp] theorem State.setFunc_launches (s : State) (n : Nat) (f : Func) : (s.setFunc n f).launches = s.launches := rfl
@[simp] theorem State.setFunc_named (s : State) (n : Nat) (f : Func) : (s.setFunc n f).named = s.named := rfl
@[simp] theorem State.setFunc_now (s : State) (n : Nat) (f : Func) : (s.setFunc n f).now = s.now := rfl
@[simp] theorem State.setFunc_beat (s : State) (n : Nat) (f : Func) : (s.setFunc n f).beat = s.beat := rfl
@[simp] theorem State.setFunc_slow (s : State) (n : Nat) (f : Func) : (s.setFunc n f).slow = s.slow := rfl
@[simp] theorem State.setFunc_net (s : State) (n : Nat) (f : Func) : (s.setFunc n f).net = s.net := rfl
@[simp] theorem State.setFunc_ready (s : State) (n : Nat) (f : Func) : (s.setFunc n f).ready = s.ready := rfl
@[simp] theorem State.setFunc_whole (s : State) (n : Nat) (f : Func) : (s.setFunc n f).whole = s.whole := rfl
@[simp] theorem State.setFunc_bootFirmware (s : State) (n : Nat) (f : Func) : (s.setFunc n f).bootFirmware = s.bootFirmware := rfl
@[simp] theorem State.setFunc_ports (s : State) (n : Nat) (f : Func) : (s.setFunc n f).ports = s.ports := rfl
@[simp] theorem State.setFunc_device (s : State) (n : Nat) (f : Func) : (s.setFunc n f).device = s.device := rfl
@[simp] theorem State.setFunc_peers (s : State) (n : Nat) (f : Func) : (s.setFunc n f).peers = s.peers := rfl
@[simp] theorem State.setFunc_failed (s : State) (n : Nat) (f : Func) : (s.setFunc n f).failed = s.failed := rfl
@[simp] theorem State.setFunc_offDies (s : State) (n : Nat) (f : Func) : (s.setFunc n f).offDies = s.offDies := rfl
@[simp] theorem State.setFunc_stamp (s : State) (n : Nat) (f : Func) : (s.setFunc n f).stamp = s.stamp := rfl

/-! ### setPeer -/

@[simp] theorem State.setPeer_cur (s : State) (n : Nat) (p : PeerPort) : (s.setPeer n p).cur = s.cur := rfl
@[simp] theorem State.setPeer_agenda (s : State) (n : Nat) (p : PeerPort) : (s.setPeer n p).agenda = s.agenda := rfl
@[simp] theorem State.setPeer_turn (s : State) (n : Nat) (p : PeerPort) : (s.setPeer n p).turn = s.turn := rfl
@[simp] theorem State.setPeer_mem (s : State) (n : Nat) (p : PeerPort) : (s.setPeer n p).mem = s.mem := rfl
@[simp] theorem State.setPeer_pages (s : State) (n : Nat) (p : PeerPort) : (s.setPeer n p).pages = s.pages := rfl
@[simp] theorem State.setPeer_hostLines (s : State) (n : Nat) (p : PeerPort) : (s.setPeer n p).hostLines = s.hostLines := rfl
@[simp] theorem State.setPeer_ctxs (s : State) (n : Nat) (p : PeerPort) : (s.setPeer n p).ctxs = s.ctxs := rfl
@[simp] theorem State.setPeer_cores (s : State) (n : Nat) (p : PeerPort) : (s.setPeer n p).cores = s.cores := rfl
@[simp] theorem State.setPeer_dies (s : State) (n : Nat) (p : PeerPort) : (s.setPeer n p).dies = s.dies := rfl
@[simp] theorem State.setPeer_clusters (s : State) (n : Nat) (p : PeerPort) : (s.setPeer n p).clusters = s.clusters := rfl
@[simp] theorem State.setPeer_parts (s : State) (n : Nat) (p : PeerPort) : (s.setPeer n p).parts = s.parts := rfl
@[simp] theorem State.setPeer_launches (s : State) (n : Nat) (p : PeerPort) : (s.setPeer n p).launches = s.launches := rfl
@[simp] theorem State.setPeer_named (s : State) (n : Nat) (p : PeerPort) : (s.setPeer n p).named = s.named := rfl
@[simp] theorem State.setPeer_now (s : State) (n : Nat) (p : PeerPort) : (s.setPeer n p).now = s.now := rfl
@[simp] theorem State.setPeer_beat (s : State) (n : Nat) (p : PeerPort) : (s.setPeer n p).beat = s.beat := rfl
@[simp] theorem State.setPeer_slow (s : State) (n : Nat) (p : PeerPort) : (s.setPeer n p).slow = s.slow := rfl
@[simp] theorem State.setPeer_net (s : State) (n : Nat) (p : PeerPort) : (s.setPeer n p).net = s.net := rfl
@[simp] theorem State.setPeer_funcs (s : State) (n : Nat) (p : PeerPort) : (s.setPeer n p).funcs = s.funcs := rfl
@[simp] theorem State.setPeer_ready (s : State) (n : Nat) (p : PeerPort) : (s.setPeer n p).ready = s.ready := rfl
@[simp] theorem State.setPeer_whole (s : State) (n : Nat) (p : PeerPort) : (s.setPeer n p).whole = s.whole := rfl
@[simp] theorem State.setPeer_bootFirmware (s : State) (n : Nat) (p : PeerPort) : (s.setPeer n p).bootFirmware = s.bootFirmware := rfl
@[simp] theorem State.setPeer_device (s : State) (n : Nat) (p : PeerPort) : (s.setPeer n p).device = s.device := rfl
@[simp] theorem State.setPeer_peers (s : State) (n : Nat) (p : PeerPort) : (s.setPeer n p).peers = s.peers := rfl
@[simp] theorem State.setPeer_failed (s : State) (n : Nat) (p : PeerPort) : (s.setPeer n p).failed = s.failed := rfl
@[simp] theorem State.setPeer_offDies (s : State) (n : Nat) (p : PeerPort) : (s.setPeer n p).offDies = s.offDies := rfl
@[simp] theorem State.setPeer_stamp (s : State) (n : Nat) (p : PeerPort) : (s.setPeer n p).stamp = s.stamp := rfl

/-! ### setPart -/

@[simp] theorem State.setPart_cur (s : State) (n : Nat) (p : Part) : (s.setPart n p).cur = s.cur := rfl
@[simp] theorem State.setPart_agenda (s : State) (n : Nat) (p : Part) : (s.setPart n p).agenda = s.agenda := rfl
@[simp] theorem State.setPart_turn (s : State) (n : Nat) (p : Part) : (s.setPart n p).turn = s.turn := rfl
@[simp] theorem State.setPart_mem (s : State) (n : Nat) (p : Part) : (s.setPart n p).mem = s.mem := rfl
@[simp] theorem State.setPart_pages (s : State) (n : Nat) (p : Part) : (s.setPart n p).pages = s.pages := rfl
@[simp] theorem State.setPart_hostLines (s : State) (n : Nat) (p : Part) : (s.setPart n p).hostLines = s.hostLines := rfl
@[simp] theorem State.setPart_ctxs (s : State) (n : Nat) (p : Part) : (s.setPart n p).ctxs = s.ctxs := rfl
@[simp] theorem State.setPart_cores (s : State) (n : Nat) (p : Part) : (s.setPart n p).cores = s.cores := rfl
@[simp] theorem State.setPart_dies (s : State) (n : Nat) (p : Part) : (s.setPart n p).dies = s.dies := rfl
@[simp] theorem State.setPart_clusters (s : State) (n : Nat) (p : Part) : (s.setPart n p).clusters = s.clusters := rfl
@[simp] theorem State.setPart_launches (s : State) (n : Nat) (p : Part) : (s.setPart n p).launches = s.launches := rfl
@[simp] theorem State.setPart_named (s : State) (n : Nat) (p : Part) : (s.setPart n p).named = s.named := rfl
@[simp] theorem State.setPart_now (s : State) (n : Nat) (p : Part) : (s.setPart n p).now = s.now := rfl
@[simp] theorem State.setPart_beat (s : State) (n : Nat) (p : Part) : (s.setPart n p).beat = s.beat := rfl
@[simp] theorem State.setPart_slow (s : State) (n : Nat) (p : Part) : (s.setPart n p).slow = s.slow := rfl
@[simp] theorem State.setPart_net (s : State) (n : Nat) (p : Part) : (s.setPart n p).net = s.net := rfl
@[simp] theorem State.setPart_funcs (s : State) (n : Nat) (p : Part) : (s.setPart n p).funcs = s.funcs := rfl
@[simp] theorem State.setPart_ready (s : State) (n : Nat) (p : Part) : (s.setPart n p).ready = s.ready := rfl
@[simp] theorem State.setPart_whole (s : State) (n : Nat) (p : Part) : (s.setPart n p).whole = s.whole := rfl
@[simp] theorem State.setPart_bootFirmware (s : State) (n : Nat) (p : Part) : (s.setPart n p).bootFirmware = s.bootFirmware := rfl
@[simp] theorem State.setPart_ports (s : State) (n : Nat) (p : Part) : (s.setPart n p).ports = s.ports := rfl
@[simp] theorem State.setPart_device (s : State) (n : Nat) (p : Part) : (s.setPart n p).device = s.device := rfl
@[simp] theorem State.setPart_peers (s : State) (n : Nat) (p : Part) : (s.setPart n p).peers = s.peers := rfl
@[simp] theorem State.setPart_failed (s : State) (n : Nat) (p : Part) : (s.setPart n p).failed = s.failed := rfl
@[simp] theorem State.setPart_offDies (s : State) (n : Nat) (p : Part) : (s.setPart n p).offDies = s.offDies := rfl
@[simp] theorem State.setPart_stamp (s : State) (n : Nat) (p : Part) : (s.setPart n p).stamp = s.stamp := rfl

/-! ### withMe -/

@[simp] theorem State.withMe_cur (s : State) (f : Ctx → Ctx) : (s.withMe f).cur = s.cur := rfl
@[simp] theorem State.withMe_agenda (s : State) (f : Ctx → Ctx) : (s.withMe f).agenda = s.agenda := rfl
@[simp] theorem State.withMe_turn (s : State) (f : Ctx → Ctx) : (s.withMe f).turn = s.turn := rfl
@[simp] theorem State.withMe_mem (s : State) (f : Ctx → Ctx) : (s.withMe f).mem = s.mem := rfl
@[simp] theorem State.withMe_pages (s : State) (f : Ctx → Ctx) : (s.withMe f).pages = s.pages := rfl
@[simp] theorem State.withMe_hostLines (s : State) (f : Ctx → Ctx) : (s.withMe f).hostLines = s.hostLines := rfl
@[simp] theorem State.withMe_cores (s : State) (f : Ctx → Ctx) : (s.withMe f).cores = s.cores := rfl
@[simp] theorem State.withMe_dies (s : State) (f : Ctx → Ctx) : (s.withMe f).dies = s.dies := rfl
@[simp] theorem State.withMe_clusters (s : State) (f : Ctx → Ctx) : (s.withMe f).clusters = s.clusters := rfl
@[simp] theorem State.withMe_parts (s : State) (f : Ctx → Ctx) : (s.withMe f).parts = s.parts := rfl
@[simp] theorem State.withMe_launches (s : State) (f : Ctx → Ctx) : (s.withMe f).launches = s.launches := rfl
@[simp] theorem State.withMe_named (s : State) (f : Ctx → Ctx) : (s.withMe f).named = s.named := rfl
@[simp] theorem State.withMe_now (s : State) (f : Ctx → Ctx) : (s.withMe f).now = s.now := rfl
@[simp] theorem State.withMe_beat (s : State) (f : Ctx → Ctx) : (s.withMe f).beat = s.beat := rfl
@[simp] theorem State.withMe_slow (s : State) (f : Ctx → Ctx) : (s.withMe f).slow = s.slow := rfl
@[simp] theorem State.withMe_net (s : State) (f : Ctx → Ctx) : (s.withMe f).net = s.net := rfl
@[simp] theorem State.withMe_funcs (s : State) (f : Ctx → Ctx) : (s.withMe f).funcs = s.funcs := rfl
@[simp] theorem State.withMe_ready (s : State) (f : Ctx → Ctx) : (s.withMe f).ready = s.ready := rfl
@[simp] theorem State.withMe_whole (s : State) (f : Ctx → Ctx) : (s.withMe f).whole = s.whole := rfl
@[simp] theorem State.withMe_bootFirmware (s : State) (f : Ctx → Ctx) : (s.withMe f).bootFirmware = s.bootFirmware := rfl
@[simp] theorem State.withMe_ports (s : State) (f : Ctx → Ctx) : (s.withMe f).ports = s.ports := rfl
@[simp] theorem State.withMe_device (s : State) (f : Ctx → Ctx) : (s.withMe f).device = s.device := rfl
@[simp] theorem State.withMe_peers (s : State) (f : Ctx → Ctx) : (s.withMe f).peers = s.peers := rfl
@[simp] theorem State.withMe_failed (s : State) (f : Ctx → Ctx) : (s.withMe f).failed = s.failed := rfl
@[simp] theorem State.withMe_offDies (s : State) (f : Ctx → Ctx) : (s.withMe f).offDies = s.offDies := rfl
@[simp] theorem State.withMe_stamp (s : State) (f : Ctx → Ctx) : (s.withMe f).stamp = s.stamp := rfl

/-! ### withTh -/

@[simp] theorem State.withTh_cur (s : State) (f : Thread → Thread) : (s.withTh f).cur = s.cur := rfl
@[simp] theorem State.withTh_agenda (s : State) (f : Thread → Thread) : (s.withTh f).agenda = s.agenda := rfl
@[simp] theorem State.withTh_turn (s : State) (f : Thread → Thread) : (s.withTh f).turn = s.turn := rfl
@[simp] theorem State.withTh_mem (s : State) (f : Thread → Thread) : (s.withTh f).mem = s.mem := rfl
@[simp] theorem State.withTh_pages (s : State) (f : Thread → Thread) : (s.withTh f).pages = s.pages := rfl
@[simp] theorem State.withTh_hostLines (s : State) (f : Thread → Thread) : (s.withTh f).hostLines = s.hostLines := rfl
@[simp] theorem State.withTh_cores (s : State) (f : Thread → Thread) : (s.withTh f).cores = s.cores := rfl
@[simp] theorem State.withTh_dies (s : State) (f : Thread → Thread) : (s.withTh f).dies = s.dies := rfl
@[simp] theorem State.withTh_clusters (s : State) (f : Thread → Thread) : (s.withTh f).clusters = s.clusters := rfl
@[simp] theorem State.withTh_parts (s : State) (f : Thread → Thread) : (s.withTh f).parts = s.parts := rfl
@[simp] theorem State.withTh_launches (s : State) (f : Thread → Thread) : (s.withTh f).launches = s.launches := rfl
@[simp] theorem State.withTh_named (s : State) (f : Thread → Thread) : (s.withTh f).named = s.named := rfl
@[simp] theorem State.withTh_now (s : State) (f : Thread → Thread) : (s.withTh f).now = s.now := rfl
@[simp] theorem State.withTh_beat (s : State) (f : Thread → Thread) : (s.withTh f).beat = s.beat := rfl
@[simp] theorem State.withTh_slow (s : State) (f : Thread → Thread) : (s.withTh f).slow = s.slow := rfl
@[simp] theorem State.withTh_net (s : State) (f : Thread → Thread) : (s.withTh f).net = s.net := rfl
@[simp] theorem State.withTh_funcs (s : State) (f : Thread → Thread) : (s.withTh f).funcs = s.funcs := rfl
@[simp] theorem State.withTh_ready (s : State) (f : Thread → Thread) : (s.withTh f).ready = s.ready := rfl
@[simp] theorem State.withTh_whole (s : State) (f : Thread → Thread) : (s.withTh f).whole = s.whole := rfl
@[simp] theorem State.withTh_bootFirmware (s : State) (f : Thread → Thread) : (s.withTh f).bootFirmware = s.bootFirmware := rfl
@[simp] theorem State.withTh_ports (s : State) (f : Thread → Thread) : (s.withTh f).ports = s.ports := rfl
@[simp] theorem State.withTh_device (s : State) (f : Thread → Thread) : (s.withTh f).device = s.device := rfl
@[simp] theorem State.withTh_peers (s : State) (f : Thread → Thread) : (s.withTh f).peers = s.peers := rfl
@[simp] theorem State.withTh_failed (s : State) (f : Thread → Thread) : (s.withTh f).failed = s.failed := rfl
@[simp] theorem State.withTh_offDies (s : State) (f : Thread → Thread) : (s.withTh f).offDies = s.offDies := rfl
@[simp] theorem State.withTh_stamp (s : State) (f : Thread → Thread) : (s.withTh f).stamp = s.stamp := rfl

/-! ### onCtx -/

@[simp] theorem State.onCtx_cur (s : State) (cid : Nat) (f : Ctx → Ctx) : (s.onCtx cid f).cur = s.cur := rfl
@[simp] theorem State.onCtx_agenda (s : State) (cid : Nat) (f : Ctx → Ctx) : (s.onCtx cid f).agenda = s.agenda := rfl
@[simp] theorem State.onCtx_turn (s : State) (cid : Nat) (f : Ctx → Ctx) : (s.onCtx cid f).turn = s.turn := rfl
@[simp] theorem State.onCtx_mem (s : State) (cid : Nat) (f : Ctx → Ctx) : (s.onCtx cid f).mem = s.mem := rfl
@[simp] theorem State.onCtx_pages (s : State) (cid : Nat) (f : Ctx → Ctx) : (s.onCtx cid f).pages = s.pages := rfl
@[simp] theorem State.onCtx_hostLines (s : State) (cid : Nat) (f : Ctx → Ctx) : (s.onCtx cid f).hostLines = s.hostLines := rfl
@[simp] theorem State.onCtx_cores (s : State) (cid : Nat) (f : Ctx → Ctx) : (s.onCtx cid f).cores = s.cores := rfl
@[simp] theorem State.onCtx_dies (s : State) (cid : Nat) (f : Ctx → Ctx) : (s.onCtx cid f).dies = s.dies := rfl
@[simp] theorem State.onCtx_clusters (s : State) (cid : Nat) (f : Ctx → Ctx) : (s.onCtx cid f).clusters = s.clusters := rfl
@[simp] theorem State.onCtx_parts (s : State) (cid : Nat) (f : Ctx → Ctx) : (s.onCtx cid f).parts = s.parts := rfl
@[simp] theorem State.onCtx_launches (s : State) (cid : Nat) (f : Ctx → Ctx) : (s.onCtx cid f).launches = s.launches := rfl
@[simp] theorem State.onCtx_named (s : State) (cid : Nat) (f : Ctx → Ctx) : (s.onCtx cid f).named = s.named := rfl
@[simp] theorem State.onCtx_now (s : State) (cid : Nat) (f : Ctx → Ctx) : (s.onCtx cid f).now = s.now := rfl
@[simp] theorem State.onCtx_beat (s : State) (cid : Nat) (f : Ctx → Ctx) : (s.onCtx cid f).beat = s.beat := rfl
@[simp] theorem State.onCtx_slow (s : State) (cid : Nat) (f : Ctx → Ctx) : (s.onCtx cid f).slow = s.slow := rfl
@[simp] theorem State.onCtx_net (s : State) (cid : Nat) (f : Ctx → Ctx) : (s.onCtx cid f).net = s.net := rfl
@[simp] theorem State.onCtx_funcs (s : State) (cid : Nat) (f : Ctx → Ctx) : (s.onCtx cid f).funcs = s.funcs := rfl
@[simp] theorem State.onCtx_ready (s : State) (cid : Nat) (f : Ctx → Ctx) : (s.onCtx cid f).ready = s.ready := rfl
@[simp] theorem State.onCtx_whole (s : State) (cid : Nat) (f : Ctx → Ctx) : (s.onCtx cid f).whole = s.whole := rfl
@[simp] theorem State.onCtx_bootFirmware (s : State) (cid : Nat) (f : Ctx → Ctx) : (s.onCtx cid f).bootFirmware = s.bootFirmware := rfl
@[simp] theorem State.onCtx_ports (s : State) (cid : Nat) (f : Ctx → Ctx) : (s.onCtx cid f).ports = s.ports := rfl
@[simp] theorem State.onCtx_device (s : State) (cid : Nat) (f : Ctx → Ctx) : (s.onCtx cid f).device = s.device := rfl
@[simp] theorem State.onCtx_peers (s : State) (cid : Nat) (f : Ctx → Ctx) : (s.onCtx cid f).peers = s.peers := rfl
@[simp] theorem State.onCtx_failed (s : State) (cid : Nat) (f : Ctx → Ctx) : (s.onCtx cid f).failed = s.failed := rfl
@[simp] theorem State.onCtx_offDies (s : State) (cid : Nat) (f : Ctx → Ctx) : (s.onCtx cid f).offDies = s.offDies := rfl
@[simp] theorem State.onCtx_stamp (s : State) (cid : Nat) (f : Ctx → Ctx) : (s.onCtx cid f).stamp = s.stamp := rfl

/-! ### onCore -/

@[simp] theorem State.onCore_cur (s : State) (n : Nat) (f : Core → Core) : (s.onCore n f).cur = s.cur := rfl
@[simp] theorem State.onCore_agenda (s : State) (n : Nat) (f : Core → Core) : (s.onCore n f).agenda = s.agenda := rfl
@[simp] theorem State.onCore_turn (s : State) (n : Nat) (f : Core → Core) : (s.onCore n f).turn = s.turn := rfl
@[simp] theorem State.onCore_mem (s : State) (n : Nat) (f : Core → Core) : (s.onCore n f).mem = s.mem := rfl
@[simp] theorem State.onCore_pages (s : State) (n : Nat) (f : Core → Core) : (s.onCore n f).pages = s.pages := rfl
@[simp] theorem State.onCore_hostLines (s : State) (n : Nat) (f : Core → Core) : (s.onCore n f).hostLines = s.hostLines := rfl
@[simp] theorem State.onCore_ctxs (s : State) (n : Nat) (f : Core → Core) : (s.onCore n f).ctxs = s.ctxs := rfl
@[simp] theorem State.onCore_dies (s : State) (n : Nat) (f : Core → Core) : (s.onCore n f).dies = s.dies := rfl
@[simp] theorem State.onCore_clusters (s : State) (n : Nat) (f : Core → Core) : (s.onCore n f).clusters = s.clusters := rfl
@[simp] theorem State.onCore_parts (s : State) (n : Nat) (f : Core → Core) : (s.onCore n f).parts = s.parts := rfl
@[simp] theorem State.onCore_launches (s : State) (n : Nat) (f : Core → Core) : (s.onCore n f).launches = s.launches := rfl
@[simp] theorem State.onCore_named (s : State) (n : Nat) (f : Core → Core) : (s.onCore n f).named = s.named := rfl
@[simp] theorem State.onCore_now (s : State) (n : Nat) (f : Core → Core) : (s.onCore n f).now = s.now := rfl
@[simp] theorem State.onCore_beat (s : State) (n : Nat) (f : Core → Core) : (s.onCore n f).beat = s.beat := rfl
@[simp] theorem State.onCore_slow (s : State) (n : Nat) (f : Core → Core) : (s.onCore n f).slow = s.slow := rfl
@[simp] theorem State.onCore_net (s : State) (n : Nat) (f : Core → Core) : (s.onCore n f).net = s.net := rfl
@[simp] theorem State.onCore_funcs (s : State) (n : Nat) (f : Core → Core) : (s.onCore n f).funcs = s.funcs := rfl
@[simp] theorem State.onCore_ready (s : State) (n : Nat) (f : Core → Core) : (s.onCore n f).ready = s.ready := rfl
@[simp] theorem State.onCore_whole (s : State) (n : Nat) (f : Core → Core) : (s.onCore n f).whole = s.whole := rfl
@[simp] theorem State.onCore_bootFirmware (s : State) (n : Nat) (f : Core → Core) : (s.onCore n f).bootFirmware = s.bootFirmware := rfl
@[simp] theorem State.onCore_ports (s : State) (n : Nat) (f : Core → Core) : (s.onCore n f).ports = s.ports := rfl
@[simp] theorem State.onCore_device (s : State) (n : Nat) (f : Core → Core) : (s.onCore n f).device = s.device := rfl
@[simp] theorem State.onCore_peers (s : State) (n : Nat) (f : Core → Core) : (s.onCore n f).peers = s.peers := rfl
@[simp] theorem State.onCore_failed (s : State) (n : Nat) (f : Core → Core) : (s.onCore n f).failed = s.failed := rfl
@[simp] theorem State.onCore_offDies (s : State) (n : Nat) (f : Core → Core) : (s.onCore n f).offDies = s.offDies := rfl
@[simp] theorem State.onCore_stamp (s : State) (n : Nat) (f : Core → Core) : (s.onCore n f).stamp = s.stamp := rfl

/-! ### onDie -/

@[simp] theorem State.onDie_cur (s : State) (n : Nat) (f : Die → Die) : (s.onDie n f).cur = s.cur := rfl
@[simp] theorem State.onDie_agenda (s : State) (n : Nat) (f : Die → Die) : (s.onDie n f).agenda = s.agenda := rfl
@[simp] theorem State.onDie_turn (s : State) (n : Nat) (f : Die → Die) : (s.onDie n f).turn = s.turn := rfl
@[simp] theorem State.onDie_mem (s : State) (n : Nat) (f : Die → Die) : (s.onDie n f).mem = s.mem := rfl
@[simp] theorem State.onDie_pages (s : State) (n : Nat) (f : Die → Die) : (s.onDie n f).pages = s.pages := rfl
@[simp] theorem State.onDie_hostLines (s : State) (n : Nat) (f : Die → Die) : (s.onDie n f).hostLines = s.hostLines := rfl
@[simp] theorem State.onDie_ctxs (s : State) (n : Nat) (f : Die → Die) : (s.onDie n f).ctxs = s.ctxs := rfl
@[simp] theorem State.onDie_cores (s : State) (n : Nat) (f : Die → Die) : (s.onDie n f).cores = s.cores := rfl
@[simp] theorem State.onDie_clusters (s : State) (n : Nat) (f : Die → Die) : (s.onDie n f).clusters = s.clusters := rfl
@[simp] theorem State.onDie_parts (s : State) (n : Nat) (f : Die → Die) : (s.onDie n f).parts = s.parts := rfl
@[simp] theorem State.onDie_launches (s : State) (n : Nat) (f : Die → Die) : (s.onDie n f).launches = s.launches := rfl
@[simp] theorem State.onDie_named (s : State) (n : Nat) (f : Die → Die) : (s.onDie n f).named = s.named := rfl
@[simp] theorem State.onDie_now (s : State) (n : Nat) (f : Die → Die) : (s.onDie n f).now = s.now := rfl
@[simp] theorem State.onDie_beat (s : State) (n : Nat) (f : Die → Die) : (s.onDie n f).beat = s.beat := rfl
@[simp] theorem State.onDie_slow (s : State) (n : Nat) (f : Die → Die) : (s.onDie n f).slow = s.slow := rfl
@[simp] theorem State.onDie_net (s : State) (n : Nat) (f : Die → Die) : (s.onDie n f).net = s.net := rfl
@[simp] theorem State.onDie_funcs (s : State) (n : Nat) (f : Die → Die) : (s.onDie n f).funcs = s.funcs := rfl
@[simp] theorem State.onDie_ready (s : State) (n : Nat) (f : Die → Die) : (s.onDie n f).ready = s.ready := rfl
@[simp] theorem State.onDie_whole (s : State) (n : Nat) (f : Die → Die) : (s.onDie n f).whole = s.whole := rfl
@[simp] theorem State.onDie_bootFirmware (s : State) (n : Nat) (f : Die → Die) : (s.onDie n f).bootFirmware = s.bootFirmware := rfl
@[simp] theorem State.onDie_ports (s : State) (n : Nat) (f : Die → Die) : (s.onDie n f).ports = s.ports := rfl
@[simp] theorem State.onDie_device (s : State) (n : Nat) (f : Die → Die) : (s.onDie n f).device = s.device := rfl
@[simp] theorem State.onDie_peers (s : State) (n : Nat) (f : Die → Die) : (s.onDie n f).peers = s.peers := rfl
@[simp] theorem State.onDie_failed (s : State) (n : Nat) (f : Die → Die) : (s.onDie n f).failed = s.failed := rfl
@[simp] theorem State.onDie_offDies (s : State) (n : Nat) (f : Die → Die) : (s.onDie n f).offDies = s.offDies := rfl
@[simp] theorem State.onDie_stamp (s : State) (n : Nat) (f : Die → Die) : (s.onDie n f).stamp = s.stamp := rfl

/-! ### onFunc -/

@[simp] theorem State.onFunc_cur (s : State) (n : Nat) (f : Func → Func) : (s.onFunc n f).cur = s.cur := rfl
@[simp] theorem State.onFunc_agenda (s : State) (n : Nat) (f : Func → Func) : (s.onFunc n f).agenda = s.agenda := rfl
@[simp] theorem State.onFunc_turn (s : State) (n : Nat) (f : Func → Func) : (s.onFunc n f).turn = s.turn := rfl
@[simp] theorem State.onFunc_mem (s : State) (n : Nat) (f : Func → Func) : (s.onFunc n f).mem = s.mem := rfl
@[simp] theorem State.onFunc_pages (s : State) (n : Nat) (f : Func → Func) : (s.onFunc n f).pages = s.pages := rfl
@[simp] theorem State.onFunc_hostLines (s : State) (n : Nat) (f : Func → Func) : (s.onFunc n f).hostLines = s.hostLines := rfl
@[simp] theorem State.onFunc_ctxs (s : State) (n : Nat) (f : Func → Func) : (s.onFunc n f).ctxs = s.ctxs := rfl
@[simp] theorem State.onFunc_cores (s : State) (n : Nat) (f : Func → Func) : (s.onFunc n f).cores = s.cores := rfl
@[simp] theorem State.onFunc_dies (s : State) (n : Nat) (f : Func → Func) : (s.onFunc n f).dies = s.dies := rfl
@[simp] theorem State.onFunc_clusters (s : State) (n : Nat) (f : Func → Func) : (s.onFunc n f).clusters = s.clusters := rfl
@[simp] theorem State.onFunc_parts (s : State) (n : Nat) (f : Func → Func) : (s.onFunc n f).parts = s.parts := rfl
@[simp] theorem State.onFunc_launches (s : State) (n : Nat) (f : Func → Func) : (s.onFunc n f).launches = s.launches := rfl
@[simp] theorem State.onFunc_named (s : State) (n : Nat) (f : Func → Func) : (s.onFunc n f).named = s.named := rfl
@[simp] theorem State.onFunc_now (s : State) (n : Nat) (f : Func → Func) : (s.onFunc n f).now = s.now := rfl
@[simp] theorem State.onFunc_beat (s : State) (n : Nat) (f : Func → Func) : (s.onFunc n f).beat = s.beat := rfl
@[simp] theorem State.onFunc_slow (s : State) (n : Nat) (f : Func → Func) : (s.onFunc n f).slow = s.slow := rfl
@[simp] theorem State.onFunc_net (s : State) (n : Nat) (f : Func → Func) : (s.onFunc n f).net = s.net := rfl
@[simp] theorem State.onFunc_ready (s : State) (n : Nat) (f : Func → Func) : (s.onFunc n f).ready = s.ready := rfl
@[simp] theorem State.onFunc_whole (s : State) (n : Nat) (f : Func → Func) : (s.onFunc n f).whole = s.whole := rfl
@[simp] theorem State.onFunc_bootFirmware (s : State) (n : Nat) (f : Func → Func) : (s.onFunc n f).bootFirmware = s.bootFirmware := rfl
@[simp] theorem State.onFunc_ports (s : State) (n : Nat) (f : Func → Func) : (s.onFunc n f).ports = s.ports := rfl
@[simp] theorem State.onFunc_device (s : State) (n : Nat) (f : Func → Func) : (s.onFunc n f).device = s.device := rfl
@[simp] theorem State.onFunc_peers (s : State) (n : Nat) (f : Func → Func) : (s.onFunc n f).peers = s.peers := rfl
@[simp] theorem State.onFunc_failed (s : State) (n : Nat) (f : Func → Func) : (s.onFunc n f).failed = s.failed := rfl
@[simp] theorem State.onFunc_offDies (s : State) (n : Nat) (f : Func → Func) : (s.onFunc n f).offDies = s.offDies := rfl
@[simp] theorem State.onFunc_stamp (s : State) (n : Nat) (f : Func → Func) : (s.onFunc n f).stamp = s.stamp := rfl

/-! ### onLaunch -/

@[simp] theorem State.onLaunch_cur (s : State) (n : Nat) (f : Launch → Launch) : (s.onLaunch n f).cur = s.cur := rfl
@[simp] theorem State.onLaunch_agenda (s : State) (n : Nat) (f : Launch → Launch) : (s.onLaunch n f).agenda = s.agenda := rfl
@[simp] theorem State.onLaunch_turn (s : State) (n : Nat) (f : Launch → Launch) : (s.onLaunch n f).turn = s.turn := rfl
@[simp] theorem State.onLaunch_mem (s : State) (n : Nat) (f : Launch → Launch) : (s.onLaunch n f).mem = s.mem := rfl
@[simp] theorem State.onLaunch_pages (s : State) (n : Nat) (f : Launch → Launch) : (s.onLaunch n f).pages = s.pages := rfl
@[simp] theorem State.onLaunch_hostLines (s : State) (n : Nat) (f : Launch → Launch) : (s.onLaunch n f).hostLines = s.hostLines := rfl
@[simp] theorem State.onLaunch_ctxs (s : State) (n : Nat) (f : Launch → Launch) : (s.onLaunch n f).ctxs = s.ctxs := rfl
@[simp] theorem State.onLaunch_cores (s : State) (n : Nat) (f : Launch → Launch) : (s.onLaunch n f).cores = s.cores := rfl
@[simp] theorem State.onLaunch_dies (s : State) (n : Nat) (f : Launch → Launch) : (s.onLaunch n f).dies = s.dies := rfl
@[simp] theorem State.onLaunch_clusters (s : State) (n : Nat) (f : Launch → Launch) : (s.onLaunch n f).clusters = s.clusters := rfl
@[simp] theorem State.onLaunch_parts (s : State) (n : Nat) (f : Launch → Launch) : (s.onLaunch n f).parts = s.parts := rfl
@[simp] theorem State.onLaunch_named (s : State) (n : Nat) (f : Launch → Launch) : (s.onLaunch n f).named = s.named := rfl
@[simp] theorem State.onLaunch_now (s : State) (n : Nat) (f : Launch → Launch) : (s.onLaunch n f).now = s.now := rfl
@[simp] theorem State.onLaunch_beat (s : State) (n : Nat) (f : Launch → Launch) : (s.onLaunch n f).beat = s.beat := rfl
@[simp] theorem State.onLaunch_slow (s : State) (n : Nat) (f : Launch → Launch) : (s.onLaunch n f).slow = s.slow := rfl
@[simp] theorem State.onLaunch_net (s : State) (n : Nat) (f : Launch → Launch) : (s.onLaunch n f).net = s.net := rfl
@[simp] theorem State.onLaunch_funcs (s : State) (n : Nat) (f : Launch → Launch) : (s.onLaunch n f).funcs = s.funcs := rfl
@[simp] theorem State.onLaunch_ready (s : State) (n : Nat) (f : Launch → Launch) : (s.onLaunch n f).ready = s.ready := rfl
@[simp] theorem State.onLaunch_whole (s : State) (n : Nat) (f : Launch → Launch) : (s.onLaunch n f).whole = s.whole := rfl
@[simp] theorem State.onLaunch_bootFirmware (s : State) (n : Nat) (f : Launch → Launch) : (s.onLaunch n f).bootFirmware = s.bootFirmware := rfl
@[simp] theorem State.onLaunch_ports (s : State) (n : Nat) (f : Launch → Launch) : (s.onLaunch n f).ports = s.ports := rfl
@[simp] theorem State.onLaunch_device (s : State) (n : Nat) (f : Launch → Launch) : (s.onLaunch n f).device = s.device := rfl
@[simp] theorem State.onLaunch_peers (s : State) (n : Nat) (f : Launch → Launch) : (s.onLaunch n f).peers = s.peers := rfl
@[simp] theorem State.onLaunch_failed (s : State) (n : Nat) (f : Launch → Launch) : (s.onLaunch n f).failed = s.failed := rfl
@[simp] theorem State.onLaunch_offDies (s : State) (n : Nat) (f : Launch → Launch) : (s.onLaunch n f).offDies = s.offDies := rfl
@[simp] theorem State.onLaunch_stamp (s : State) (n : Nat) (f : Launch → Launch) : (s.onLaunch n f).stamp = s.stamp := rfl

/-! ### send -/

@[simp] theorem State.send_cur (s : State) (a b : Nat) (m : Body) : (s.send a b m).cur = s.cur := rfl
@[simp] theorem State.send_agenda (s : State) (a b : Nat) (m : Body) : (s.send a b m).agenda = s.agenda := rfl
@[simp] theorem State.send_turn (s : State) (a b : Nat) (m : Body) : (s.send a b m).turn = s.turn := rfl
@[simp] theorem State.send_mem (s : State) (a b : Nat) (m : Body) : (s.send a b m).mem = s.mem := rfl
@[simp] theorem State.send_pages (s : State) (a b : Nat) (m : Body) : (s.send a b m).pages = s.pages := rfl
@[simp] theorem State.send_hostLines (s : State) (a b : Nat) (m : Body) : (s.send a b m).hostLines = s.hostLines := rfl
@[simp] theorem State.send_ctxs (s : State) (a b : Nat) (m : Body) : (s.send a b m).ctxs = s.ctxs := rfl
@[simp] theorem State.send_cores (s : State) (a b : Nat) (m : Body) : (s.send a b m).cores = s.cores := rfl
@[simp] theorem State.send_dies (s : State) (a b : Nat) (m : Body) : (s.send a b m).dies = s.dies := rfl
@[simp] theorem State.send_clusters (s : State) (a b : Nat) (m : Body) : (s.send a b m).clusters = s.clusters := rfl
@[simp] theorem State.send_parts (s : State) (a b : Nat) (m : Body) : (s.send a b m).parts = s.parts := rfl
@[simp] theorem State.send_launches (s : State) (a b : Nat) (m : Body) : (s.send a b m).launches = s.launches := rfl
@[simp] theorem State.send_named (s : State) (a b : Nat) (m : Body) : (s.send a b m).named = s.named := rfl
@[simp] theorem State.send_now (s : State) (a b : Nat) (m : Body) : (s.send a b m).now = s.now := rfl
@[simp] theorem State.send_beat (s : State) (a b : Nat) (m : Body) : (s.send a b m).beat = s.beat := rfl
@[simp] theorem State.send_slow (s : State) (a b : Nat) (m : Body) : (s.send a b m).slow = s.slow := rfl
@[simp] theorem State.send_funcs (s : State) (a b : Nat) (m : Body) : (s.send a b m).funcs = s.funcs := rfl
@[simp] theorem State.send_ready (s : State) (a b : Nat) (m : Body) : (s.send a b m).ready = s.ready := rfl
@[simp] theorem State.send_whole (s : State) (a b : Nat) (m : Body) : (s.send a b m).whole = s.whole := rfl
@[simp] theorem State.send_bootFirmware (s : State) (a b : Nat) (m : Body) : (s.send a b m).bootFirmware = s.bootFirmware := rfl
@[simp] theorem State.send_ports (s : State) (a b : Nat) (m : Body) : (s.send a b m).ports = s.ports := rfl
@[simp] theorem State.send_device (s : State) (a b : Nat) (m : Body) : (s.send a b m).device = s.device := rfl
@[simp] theorem State.send_peers (s : State) (a b : Nat) (m : Body) : (s.send a b m).peers = s.peers := rfl
@[simp] theorem State.send_failed (s : State) (a b : Nat) (m : Body) : (s.send a b m).failed = s.failed := rfl
@[simp] theorem State.send_offDies (s : State) (a b : Nat) (m : Body) : (s.send a b m).offDies = s.offDies := rfl
@[simp] theorem State.send_stamp (s : State) (a b : Nat) (m : Body) : (s.send a b m).stamp = s.stamp := rfl

/-! ### dropMsg -/

@[simp] theorem State.dropMsg_cur (s : State) (n : Nat) : (s.dropMsg n).cur = s.cur := rfl
@[simp] theorem State.dropMsg_agenda (s : State) (n : Nat) : (s.dropMsg n).agenda = s.agenda := rfl
@[simp] theorem State.dropMsg_turn (s : State) (n : Nat) : (s.dropMsg n).turn = s.turn := rfl
@[simp] theorem State.dropMsg_mem (s : State) (n : Nat) : (s.dropMsg n).mem = s.mem := rfl
@[simp] theorem State.dropMsg_pages (s : State) (n : Nat) : (s.dropMsg n).pages = s.pages := rfl
@[simp] theorem State.dropMsg_hostLines (s : State) (n : Nat) : (s.dropMsg n).hostLines = s.hostLines := rfl
@[simp] theorem State.dropMsg_ctxs (s : State) (n : Nat) : (s.dropMsg n).ctxs = s.ctxs := rfl
@[simp] theorem State.dropMsg_cores (s : State) (n : Nat) : (s.dropMsg n).cores = s.cores := rfl
@[simp] theorem State.dropMsg_dies (s : State) (n : Nat) : (s.dropMsg n).dies = s.dies := rfl
@[simp] theorem State.dropMsg_clusters (s : State) (n : Nat) : (s.dropMsg n).clusters = s.clusters := rfl
@[simp] theorem State.dropMsg_parts (s : State) (n : Nat) : (s.dropMsg n).parts = s.parts := rfl
@[simp] theorem State.dropMsg_launches (s : State) (n : Nat) : (s.dropMsg n).launches = s.launches := rfl
@[simp] theorem State.dropMsg_named (s : State) (n : Nat) : (s.dropMsg n).named = s.named := rfl
@[simp] theorem State.dropMsg_now (s : State) (n : Nat) : (s.dropMsg n).now = s.now := rfl
@[simp] theorem State.dropMsg_beat (s : State) (n : Nat) : (s.dropMsg n).beat = s.beat := rfl
@[simp] theorem State.dropMsg_slow (s : State) (n : Nat) : (s.dropMsg n).slow = s.slow := rfl
@[simp] theorem State.dropMsg_funcs (s : State) (n : Nat) : (s.dropMsg n).funcs = s.funcs := rfl
@[simp] theorem State.dropMsg_ready (s : State) (n : Nat) : (s.dropMsg n).ready = s.ready := rfl
@[simp] theorem State.dropMsg_whole (s : State) (n : Nat) : (s.dropMsg n).whole = s.whole := rfl
@[simp] theorem State.dropMsg_bootFirmware (s : State) (n : Nat) : (s.dropMsg n).bootFirmware = s.bootFirmware := rfl
@[simp] theorem State.dropMsg_ports (s : State) (n : Nat) : (s.dropMsg n).ports = s.ports := rfl
@[simp] theorem State.dropMsg_device (s : State) (n : Nat) : (s.dropMsg n).device = s.device := rfl
@[simp] theorem State.dropMsg_peers (s : State) (n : Nat) : (s.dropMsg n).peers = s.peers := rfl
@[simp] theorem State.dropMsg_failed (s : State) (n : Nat) : (s.dropMsg n).failed = s.failed := rfl
@[simp] theorem State.dropMsg_offDies (s : State) (n : Nat) : (s.dropMsg n).offDies = s.offDies := rfl
@[simp] theorem State.dropMsg_stamp (s : State) (n : Nat) : (s.dropMsg n).stamp = s.stamp := rfl

/-! ### Reset -/

@[simp] theorem State.reset_mem : State.reset.mem = [] := rfl
@[simp] theorem State.reset_agenda : State.reset.agenda = [] := rfl
@[simp] theorem State.reset_ctx (k : Nat) : State.reset.ctx k = Ctx.zero := rfl
@[simp] theorem State.reset_core (k : Nat) : State.reset.core k = Core.zero := rfl
@[simp] theorem State.reset_die (k : Nat) : State.reset.die k = Die.zero := rfl
@[simp] theorem State.reset_cluster (k : Nat) : State.reset.cluster k = Cluster.zero := rfl
@[simp] theorem State.reset_func (k : Nat) : State.reset.func k = Func.zero := rfl

end Machine

end Sys2Proof
end

