-- ==== Sys2Proof/Laws/Memory.lean ====
section
/-! SUPPORT. The laws of memory: a read after a write, and the canonical form that every operation keeps. -/

namespace Sys2Proof.Machine

open Sys2Proof

/-! ### Reading -/

/-- A read of an unlisted key below every listed one gives the blank byte. -/
theorem Memory.read_below : ∀ (m : Memory) (lo k : Nat), Memory.wfFrom lo m = true → k < lo → m.read k = Memory.blank
  | [], _, _, _, _ => rfl
  | (a, b) :: rest, lo, k, h, hk => by
    simp only [Memory.wfFrom, Bool.and_eq_true, decide_eq_true_eq] at h
    obtain ⟨⟨ha, _⟩, hr⟩ := h
    have hne : a ≠ k := by omega
    simp only [Memory.read, hne, if_false]
    exact Memory.read_below rest (a + 1) k hr (by omega)

/-- A read after a write: the value written at that key, the old byte at every other one. -/
theorem Memory.read_write : ∀ (m : Memory) (lo k j : Nat) (v : Byte), Memory.wfFrom lo m = true →
    (m.write k v).read j = if j = k then v else m.read j
  | [], _, k, j, v, _ => by
    by_cases hv : v = Memory.blank <;> by_cases hj : j = k <;> simp [Memory.write, Memory.read, hv, hj, eq_comm]
    intro h; exact absurd h.symm hj
  | (a, b) :: rest, lo, k, j, v, h => by
    simp only [Memory.wfFrom, Bool.and_eq_true, decide_eq_true_eq] at h
    obtain ⟨⟨_, _⟩, hr⟩ := h
    have hb := Memory.read_below rest (a + 1)
    by_cases ha : a = k
    · subst ha
      by_cases hv : v = Memory.blank
      · subst hv
        by_cases hj : j = a
        · subst hj; simpa [Memory.write] using hb j hr (by omega)
        · simp [Memory.write, Memory.read, hj, Ne.symm hj]
      · by_cases hj : j = a
        · subst hj; simp [Memory.write, hv, Memory.read]
        · simp [Memory.write, hv, Memory.read, hj, Ne.symm hj]
    · by_cases hk : k < a
      · have hbk : Memory.read ((a, b) :: rest) k = Memory.blank := by
          simp only [Memory.read, ha, if_false]; exact hb k hr (by omega)
        by_cases hv : v = Memory.blank
        · subst hv
          by_cases hj : j = k
          · subst hj; simpa [Memory.write, ha, hk] using hbk
          · simp [Memory.write, ha, hk, hj]
        · by_cases hj : j = k
          · subst hj; simp [Memory.write, ha, hk, hv, Memory.read]
          · simp [Memory.write, ha, hk, hv, hj, Memory.read, Ne.symm hj]
      · have ih := Memory.read_write rest (a + 1) k j v hr
        by_cases hj : a = j
        · subst hj; simp [Memory.write, ha, hk, Memory.read]
        · simpa [Memory.write, ha, hk, Memory.read, hj] using ih

/-- A read at the key just written. -/
theorem Memory.read_write_self (m : Memory) (k : Nat) (v : Byte) (h : m.wf = true) : (m.write k v).read k = v := by
  simp [Memory.read_write m 0 k k v h]

/-- A read at another key. -/
theorem Memory.read_write_ne (m : Memory) (k j : Nat) (v : Byte) (h : m.wf = true) (hj : j ≠ k) :
    (m.write k v).read j = m.read j := by
  simp [Memory.read_write m 0 k j v h, hj]

/-! ### The canonical form -/

/-- A lower bound may be lowered. -/
theorem Memory.wfFrom_mono : ∀ (m : Memory) (lo lo' : Nat), lo' ≤ lo → Memory.wfFrom lo m = true → Memory.wfFrom lo' m = true
  | [], _, _, _, _ => rfl
  | (a, b) :: rest, lo, lo', hl, h => by
    simp only [Memory.wfFrom, Bool.and_eq_true, decide_eq_true_eq] at h ⊢
    exact ⟨⟨by omega, h.1.2⟩, h.2⟩

/-- A write keeps the form. -/
theorem Memory.wfFrom_write : ∀ (m : Memory) (lo k : Nat) (v : Byte), Memory.wfFrom lo m = true → lo ≤ k →
    Memory.wfFrom lo (m.write k v) = true
  | [], lo, k, v, _, hk => by
    by_cases hv : v = Memory.blank <;> simp [Memory.write, Memory.wfFrom, hv, hk]
  | (a, b) :: rest, lo, k, v, h, hk => by
    simp only [Memory.wfFrom, Bool.and_eq_true, decide_eq_true_eq] at h
    obtain ⟨⟨hlo, hb⟩, hr⟩ := h
    by_cases ha : a = k
    · subst ha
      by_cases hv : v = Memory.blank
      · simpa [Memory.write, hv] using Memory.wfFrom_mono rest (a + 1) lo (by omega) hr
      · simp [Memory.write, hv, Memory.wfFrom, hlo, hr]
    · by_cases hka : k < a
      · by_cases hv : v = Memory.blank
        · simp [Memory.write, ha, hka, hv, Memory.wfFrom, hlo, hb, hr]
        · have hak : k + 1 ≤ a := by omega
          simp [Memory.write, ha, hka, hv, Memory.wfFrom, hb, hr, hk, hak]
      · simp [Memory.write, ha, hka, Memory.wfFrom, hlo, hb, Memory.wfFrom_write rest (a + 1) k v hr (by omega)]

theorem Memory.wf_write (m : Memory) (k : Nat) (v : Byte) (h : m.wf = true) : (m.write k v).wf = true :=
  Memory.wfFrom_write m 0 k v h (Nat.zero_le k)

/-- A write of bytes keeps the form. -/
theorem Memory.wf_put : ∀ (bs : List Byte) (m : Memory) (k : Nat), m.wf = true → (m.put k bs).wf = true
  | [], _, _, h => h
  | b :: rest, m, k, h => Memory.wf_put rest (m.write k b) (k + 1) (Memory.wf_write m k b h)

/-- Dropping listed bytes keeps the form (a bank that powers down, R57). -/
theorem Memory.wfFrom_filter (f : Host.Cell → Bool) : ∀ (m : Memory) (lo : Nat), Memory.wfFrom lo m = true →
    Memory.wfFrom lo (List.filter f m) = true
  | [], _, _ => rfl
  | (a, b) :: rest, lo, h => by
    simp only [Memory.wfFrom, Bool.and_eq_true, decide_eq_true_eq] at h
    obtain ⟨⟨hlo, hb⟩, hr⟩ := h
    have ih := Memory.wfFrom_filter f rest (a + 1) hr
    by_cases hf : f (a, b) = true
    · simp [hf, Memory.wfFrom, hlo, hb, ih]
    · simpa [List.filter_cons, hf] using Memory.wfFrom_mono _ (a + 1) lo (by omega) ih

theorem Memory.wf_filter (f : Host.Cell → Bool) (m : Memory) (h : m.wf = true) : Memory.wf (List.filter f m) = true :=
  Memory.wfFrom_filter f m 0 h

/-- Writes of single bytes from a list keep the form (the image's code, R386). -/
theorem Memory.wf_foldl_write {α : Type} (key : α → Nat) (val : α → Byte) : ∀ (l : List α) (m : Memory), m.wf = true →
    Memory.wf (l.foldl (fun m e => m.write (key e) (val e)) m) = true
  | [], _, h => h
  | e :: rest, m, h => Memory.wf_foldl_write key val rest _ (Memory.wf_write m (key e) (val e) h)

/-! ### Reading what was put -/

/-- A read outside the bytes put. -/
theorem Memory.read_put_out : ∀ (bs : List Byte) (m : Memory) (k j : Nat), m.wf = true → (j < k ∨ k + bs.length ≤ j) →
    (m.put k bs).read j = m.read j
  | [], _, _, _, _, _ => rfl
  | b :: rest, m, k, j, h, hj => by
    have h1 := Memory.read_put_out rest (m.write k b) (k + 1) j (Memory.wf_write m k b h)
      (by simp only [List.length_cons] at hj; omega)
    have h2 := Memory.read_write_ne m k j b h (by simp only [List.length_cons] at hj; omega)
    simpa [Memory.put, h2] using h1

/-- A read of one of the bytes put. -/
theorem Memory.read_put_in : ∀ (bs : List Byte) (m : Memory) (k i : Nat) (hi : i < bs.length), m.wf = true →
    (m.put k bs).read (k + i) = bs[i]
  | b :: rest, m, k, 0, _, h => by
    have := Memory.read_put_out rest (m.write k b) (k + 1) k (Memory.wf_write m k b h) (Or.inl (Nat.lt_succ_self k))
    simp [Memory.put, this, Memory.read_write_self m k b h]
  | b :: rest, m, k, i + 1, hi, h => by
    have := Memory.read_put_in rest (m.write k b) (k + 1) i (by simpa using hi) (Memory.wf_write m k b h)
    simpa [Memory.put, Nat.add_assoc, Nat.add_comm 1 i] using this

/-- Reset memory has the form. -/
theorem State.reset_mem_wf : State.reset.mem.wf = true := rfl

end Sys2Proof.Machine
end

