-- ==== Sys2Proof/Laws/Ops.lean ====
section
/-! SUPPORT. What each shared operation of Machine/Ops.lean and Machine/Operands.lean can do, said once: operands, the end
of a packet, waiting, and taking an exception; and that none of them writes memory. -/

namespace Sys2Proof.Machine

open Sys2Proof

/-! ### Operands and the end of a packet -/

/-- Operands that are there go to the instruction. -/
theorem State.withOps_ok {s u : State} {a b d : Reg} {x y : Word} (k : State → Word → Word → Out State)
    (h : s.operands a b d = .ok u x y) : s.withOps a b d k = k u x y := by
  simp only [State.withOps, h]

/-- Operands that are not there yet keep the instruction. -/
theorem State.withOps_wait {s : State} {a b d : Reg} {w : Wait} (k : State → Word → Word → Out State)
    (h : s.operands a b d = .wait w) : s.withOps a b d k = s.waitFor w := by
  simp only [State.withOps, h]

/-- A port that leads nowhere raises BAD_PORT. -/
theorem State.withOps_bad {s : State} {a b d r : Reg} (k : State → Word → Word → Out State)
    (h : s.operands a b d = .bad r) : s.withOps a b d k = .next (s.trap .badPort (BitVec.ofNat 64 r.num)) := by
  simp only [State.withOps, h, State.raise]

/-- Everything that an instruction over operands can do. -/
theorem State.withOps_cases (s : State) (a b d : Reg) (k : State → Word → Word → Out State) :
    (∃ u x y, s.operands a b d = .ok u x y ∧ s.withOps a b d k = k u x y)
      ∨ (∃ w, s.operands a b d = .wait w ∧ s.withOps a b d k = s.waitFor w)
      ∨ (∃ r, s.operands a b d = .bad r ∧ s.withOps a b d k = .next (s.trap .badPort (BitVec.ofNat 64 r.num))) := by
  cases h : s.operands a b d with
  | ok u x y => exact .inl ⟨u, x, y, rfl, State.withOps_ok k h⟩
  | wait w => exact .inr (.inl ⟨w, rfl, State.withOps_wait k h⟩)
  | bad r => exact .inr (.inr ⟨r, rfl, State.withOps_bad k h⟩)

/-- The checker holds, and the packet is done. -/
theorem State.complete_next {s : State} {i : Instr} {taken : Bool} (h : s.Signed i taken) (npc : Addr48) (s' : State) :
    s.complete i taken npc s' = .next (s.finished i taken npc s') := by
  simp only [State.complete, State.Signed] at *
  simp only [h, State.finished]
  rfl

/-- The checker fails, and SIGNATURE is raised in place of the packet's effect. -/
theorem State.complete_signature {s : State} {i : Instr} {taken : Bool} (h : s.sigFails i taken = true) (npc : Addr48) (s' : State) :
    s.complete i taken npc s' = .next (s.trap .signature (s.sigDetail i taken)) := by
  simp only [State.complete, h, State.raise]
  rfl

/-- The same for a packet that goes on at PC + 4. -/
theorem State.done_next {s : State} {i : Instr} (h : s.Signed i false) (s' : State) : s.done i s' = .next (s.ended i s') :=
  State.complete_next h _ s'

/-- A packet without a checker is signed. -/
theorem State.signed_of_off {s : State} (h : s.th.sig.en = false) (i : Instr) (taken : Bool) : s.Signed i taken := by
  simp only [State.Signed, State.sigFails, State.endb, h, Bool.false_and]

/-! ### Taking an exception -/

/-- Everything that delivering a cause can do: a routine without a handler fails, the context enters its handler, context 0
has a firmware fault, any other context delegates. -/
theorem State.deliver_cases (s : State) (cid : Nat) (c : Cause) (cls : Class) (d : Word) (n : Nat) :
    (∃ st, s.deliver cid c cls d n = s.failRoutine cid st)
      ∨ (s.entersOwn cid c = true ∧ s.deliver cid c cls d n = s.enter cid (causeWord 0 0 false n cls c) d)
      ∨ (ctxOf cid = 0 ∧ s.deliver cid c cls d n = s.firmwareFaults cid c)
      ∨ (ctxOf cid ≠ 0 ∧ s.entersOwn cid c = false ∧ s.deliver cid c cls d n = s.delegate cid c cls d n) := by
  simp only [State.deliver]
  split
  · exact .inl ⟨_, rfl⟩
  · split
    · exact .inr (.inl ⟨‹_›, rfl⟩)
    · split
      · exact .inr (.inr (.inl ⟨by simpa using ‹(ctxOf cid == 0) = true›, rfl⟩))
      · exact .inr (.inr (.inr ⟨by simpa using ‹¬(ctxOf cid == 0) = true›, by simpa using ‹¬s.entersOwn cid c = true›, rfl⟩))

/-! ### None of these writes memory -/

@[simp] theorem State.note_mem (s : State) (cid k : Nat) (q : BitVec 8) (pc : Addr48) (a b : Word) : (s.note cid k q pc a b).mem = s.mem := by
  simp only [State.note]
  repeat' split
  all_goals rfl

@[simp] theorem State.noteWave_mem (s : State) (cid : Nat) (q : BitVec 8) (n : Nat) : (s.noteWave cid q n).mem = s.mem := State.note_mem ..

@[simp] theorem State.noteMeeting_mem (s : State) (cid : Nat) (q : BitVec 8) (r : Reg) (k : Landed) (l : Bool) :
    (s.noteMeeting cid q r k l).mem = s.mem := by
  simp only [State.noteMeeting]
  generalize meetRecs _ r q k l = es
  clear l k
  induction es generalizing s with
  | nil => rfl
  | cons e es ih => rw [List.foldl_cons, ih, State.note_mem]

@[simp] theorem State.noteResult_mem (s : State) (cid : Nat) (q : BitVec 8) (r : Reg) (k : Landed) (l : Bool) :
    (s.noteResult cid q r k l).mem = s.mem := by
  simp [State.noteResult]

@[simp] theorem State.wave_mem (s : State) (cid : Nat) (q : BitVec 8) (tgt : Addr48) (n : Nat) : (s.wave cid q tgt n).mem = s.mem := by
  simp [State.wave]

@[simp] theorem State.leaveOrders_mem (s : State) (cid : Nat) : (s.leaveOrders cid).mem = s.mem := rfl

@[simp] theorem State.retire_mem (s : State) (cid : Nat) : (s.retire cid).mem = s.mem := by
  simp only [State.retire]
  split <;> simp

@[simp] theorem State.enter_mem (s : State) (cid : Nat) (c d : Word) : (s.enter cid c d).mem = s.mem := by
  simp [State.enter]

@[simp] theorem State.delegate_mem (s : State) (cid : Nat) (c : Cause) (cls : Class) (d : Word) (n : Nat) :
    (s.delegate cid c cls d n).mem = s.mem := by
  simp [State.delegate]

@[simp] theorem State.firmwareFaults_mem (s : State) (cid : Nat) (c : Cause) : (s.firmwareFaults cid c).mem = s.mem := by
  simp [State.firmwareFaults]

@[simp] theorem State.orphanWords_mem (core tid : Nat) : ∀ (ks : List Nat) (s : State), (s.orphanWords core tid ks).mem = s.mem
  | [], _ => rfl
  | k :: ks, s => by
    have h := State.orphanWords_mem core tid ks
    simp only [State.orphanWords, List.foldl_cons] at h ⊢
    rw [h]
    split <;> simp

/-- Sending one message for each entry of a list writes no memory. -/
theorem State.sendEach_mem {α : Type} (f : State → α → State) (h : ∀ s x, (f s x).mem = s.mem) :
    ∀ (l : List α) (s : State), (l.foldl f s).mem = s.mem
  | [], _ => rfl
  | x :: l, s => by rw [List.foldl_cons, State.sendEach_mem f h l, h]

@[simp] theorem State.dropGrants_mem (s : State) (core : Nat) (c : CopyCmd) : (s.dropGrants core c).mem = s.mem := by
  simp only [State.dropGrants]
  exact State.sendEach_mem _ (fun _ _ => by simp) _ s

@[simp] theorem State.cancelFor_mem (s : State) (core cid : Nat) : (s.cancelFor core cid).mem = s.mem := by
  simp only [State.cancelFor, State.onCore_mem]
  exact State.sendEach_mem _ (fun s c => s.dropGrants_mem core c) _ s

@[simp] theorem State.onAct_mem (s : State) (h : Word) (f : Act → Act) : (s.onAct h f).mem = s.mem := by
  simp only [State.onAct]
  split <;> simp

@[simp] theorem State.detach_mem (s : State) (cid : Nat) : (s.detach cid).mem = s.mem := by
  simp only [State.detach]
  split <;> simp [State.leaveAct]

@[simp] theorem State.abandon_mem (s : State) (h : Word) : (s.abandon h).mem = s.mem := by
  simp only [State.abandon]
  repeat' split
  all_goals simp [State.tellParticipants, State.onHeld]

@[simp] theorem State.loseAct_mem (s : State) (cid : Nat) : (s.loseAct cid).mem = s.mem := by
  simp only [State.loseAct]
  repeat' split
  all_goals simp

@[simp] theorem State.disown_mem (s : State) (cid : Nat) : (s.disown cid).mem = s.mem := rfl

@[simp] theorem State.unhold_mem (s : State) (core : Nat) (p : Parked) : (s.unhold core p).mem = s.mem := by
  simp only [State.unhold]
  repeat' split
  all_goals simp

@[simp] theorem State.ranOn_mem (s : State) (core launch : Nat) : (s.ranOn core launch).mem = s.mem := rfl

@[simp] theorem State.occupy_mem (s : State) (cid : Nat) (t : Thread) (a : Tab Word) : (s.occupy cid t a).mem = s.mem := by
  simp only [State.occupy]
  generalize ((s.ranOn (coreOf cid) t.launch).core (coreOf cid)).powered = b
  cases b <;> simp

@[simp] theorem State.letIn_mem (s : State) (cid : Nat) (p : Parked) : (s.letIn cid p).mem = s.mem := by
  simp only [State.letIn, State.relabel]
  split <;> simp

@[simp] theorem State.offer_mem (s : State) (core : Nat) : (s.offer core).mem = s.mem := by
  simp only [State.offer]
  repeat' split
  all_goals simp

@[simp] theorem State.kill_mem (s : State) (cid : Nat) : (s.kill cid).mem = s.mem := by
  simp [State.kill, State.dropWatches, State.cancelCommands, State.orphanAll]

@[simp] theorem State.vacate_mem (s : State) (cid : Nat) : (s.vacate cid).mem = s.mem := by
  simp [State.vacate]

@[simp] theorem State.reap_mem (s : State) (cid : Nat) : (s.reap cid).mem = s.mem := by
  simp only [State.reap]
  split <;> simp

@[simp] theorem State.failRoutine_mem (s : State) (cid : Nat) (st : Word) : (s.failRoutine cid st).mem = s.mem := by
  simp only [State.failRoutine, State.routineFails, State.supervise]
  repeat' split
  all_goals simp

/-- TAKING AN EXCEPTION writes no memory. -/
@[simp] theorem State.deliver_mem (s : State) (cid : Nat) (c : Cause) (cls : Class) (d : Word) (n : Nat) :
    (s.deliver cid c cls d n).mem = s.mem := by
  obtain ⟨st, h⟩ | ⟨_, h⟩ | ⟨_, h⟩ | ⟨_, _, h⟩ := s.deliver_cases cid c cls d n <;> simp [h]

@[simp] theorem State.counts_mem (s : State) (c : Cause) : (s.counts c).mem = s.mem := rfl

@[simp] theorem State.trap_mem (s : State) (c : Cause) (d : Word) : (s.trap c d).mem = s.mem := by
  simp [State.trap]

@[simp] theorem State.advance_mem (s : State) (i : Instr) (npc : Addr48) (taken : Bool) : (s.advance i npc taken).mem = s.mem := by
  simp only [State.advance]
  repeat' split
  all_goals simp

@[simp] theorem State.finished_mem (s : State) (i : Instr) (taken : Bool) (npc : Addr48) (s' : State) :
    (s.finished i taken npc s').mem = s'.mem := by
  simp only [State.finished]
  split <;> simp

@[simp] theorem State.ended_mem (s : State) (i : Instr) (s' : State) : (s.ended i s').mem = s'.mem := State.finished_mem ..

end Sys2Proof.Machine
end

