-- ==== Sys2Proof/Tests/Slice0.lean ====
section
/-! SUPPORT. Tests of the model: words of the spec's encodings, what the statements assume met by concrete states
(one witness theorem per statement with hypotheses), and single steps with results taken by hand from the rules. -/

-- One thread elaborates: the stacks of many at once can exceed the memory limit of the check.
set_option Elab.async false

namespace Sys2Proof.Tests

open Sys2Proof Sys2Proof.Machine

/-! ### Decoding -/

/-- Words of the integer family, put together from the match and the fields of spec/opcode_table.json. -/
theorem test_decode_integer :
    [0x04A63800, 0x04A63801, 0x04A63810, 0x04A63811, 0x04A63820, 0x04A63830, 0x04A63840, 0x04A63850, 0x04A63860, 0x04A63880,
     0x04A63881, 0x04A63890, 0x04A63891, 0x04A638A0, 0x04A638A1, 0x04A638B0, 0x04A638B1, 0x04A658C2, 0x04A658C1, 0x04A658D2,
     0x04A658D1, 0x04A658E2, 0x04A658E1, 0x04A63900, 0x04A63910, 0x04A63920, 0x04A63930, 0x04A63940, 0x04A63950, 0x04A63960,
     0x04A63970, 0x04A63980, 0x04A63A00, 0x04A60210, 0x04A60220].map decode
      = [.add (.g 5) (.g 6) (.g 7), .addw (.g 5) (.g 6) (.g 7), .sub (.g 5) (.g 6) (.g 7), .subw (.g 5) (.g 6) (.g 7),
        .andR (.g 5) (.g 6) (.g 7), .orR (.g 5) (.g 6) (.g 7), .xorR (.g 5) (.g 6) (.g 7), .andn (.g 5) (.g 6) (.g 7),
        .orn (.g 5) (.g 6) (.g 7), .shl (.g 5) (.g 6) (.g 7), .shlw (.g 5) (.g 6) (.g 7), .shr (.g 5) (.g 6) (.g 7),
        .shrw (.g 5) (.g 6) (.g 7), .sha (.g 5) (.g 6) (.g 7), .shaw (.g 5) (.g 6) (.g 7), .rotl (.g 5) (.g 6) (.g 7),
        .rotlw (.g 5) (.g 6) (.g 7), .shli (.g 5) (.g 6) 0xB 1, .shliw (.g 5) (.g 6) 0xB, .shri (.g 5) (.g 6) 0xB 1,
        .shriw (.g 5) (.g 6) 0xB, .shai (.g 5) (.g 6) 0xB 1, .shaiw (.g 5) (.g 6) 0xB, .slt (.g 5) (.g 6) (.g 7),
        .sltn (.g 5) (.g 6) (.g 7), .seq (.g 5) (.g 6) (.g 7), .sne (.g 5) (.g 6) (.g 7), .min (.g 5) (.g 6) (.g 7),
        .max (.g 5) (.g 6) (.g 7), .minn (.g 5) (.g 6) (.g 7), .maxn (.g 5) (.g 6) (.g 7), .sel (.g 5) (.g 6) (.g 7),
        .spa (.g 5) (.g 6) (.g 7), .spx (.g 5) (.g 6), .home (.g 5) (.g 6)].map .ok := rfl

/-- Words of the muldiv family, put together from the match and the fields of spec/opcode_table.json. -/
theorem test_decode_muldiv :
    [0x08A63800, 0x08A63801, 0x08A63810, 0x08A63820, 0x08A63840, 0x08A63841, 0x08A63850, 0x08A63851, 0x08A63860, 0x08A63861,
     0x08A63870, 0x08A63871].map decode
      = [.mul (.g 5) (.g 6) (.g 7), .mulw (.g 5) (.g 6) (.g 7), .mulh (.g 5) (.g 6) (.g 7), .mulhn (.g 5) (.g 6) (.g 7),
        .div (.g 5) (.g 6) (.g 7), .divw (.g 5) (.g 6) (.g 7), .divn (.g 5) (.g 6) (.g 7), .divnw (.g 5) (.g 6) (.g 7),
        .rem (.g 5) (.g 6) (.g 7), .remw (.g 5) (.g 6) (.g 7), .remn (.g 5) (.g 6) (.g 7), .remnw (.g 5) (.g 6) (.g 7)].map .ok := rfl

/-- Words of the bits family, put together from the match and the fields of spec/opcode_table.json. -/
theorem test_decode_bits :
    [0x0CA60000, 0x0CA60001, 0x0CA60010, 0x0CA60011, 0x0CA60020, 0x0CA60021, 0x0CA60030, 0x0CA60031, 0x0CA60040, 0x0CA60041].map decode
      = [.clz (.g 5) (.g 6), .clzw (.g 5) (.g 6), .ctz (.g 5) (.g 6), .ctzw (.g 5) (.g 6), .pop (.g 5) (.g 6),
        .popw (.g 5) (.g 6), .brev (.g 5) (.g 6), .brevw (.g 5) (.g 6), .bswap (.g 5) (.g 6), .bswapw (.g 5) (.g 6)].map .ok := rfl

/-- Words of the immediate family, put together from the match and the fields of spec/opcode_table.json. -/
theorem test_decode_immediate :
    [0x10A61E4B, 0x14A61E4B, 0x18A61E4B, 0x1CA61E4B, 0x20A61E4B, 0x24A61E4B, 0x28A01E4B, 0x2CA01E4B, 0x30A61E4B, 0x34A61E4B].map decode
      = [.addi (.g 5) (.g 6) 0x1E4B, .andi (.g 5) (.g 6) 0x1E4B, .ori (.g 5) (.g 6) 0x1E4B, .xori (.g 5) (.g 6) 0x1E4B,
        .slti (.g 5) (.g 6) 0x1E4B, .sltni (.g 5) (.g 6) 0x1E4B, .li (.g 5) 0x1E4B, .lih (.g 5) 0x1E4B,
        .muli (.g 5) (.g 6) 0x1E4B, .addiw (.g 5) (.g 6) 0x1E4B].map .ok := rfl

/-- Words of the field family, put together from the match and the fields of spec/opcode_table.json. -/
theorem test_decode_field :
    [0x38A60B94, 0x38A64B94, 0x38A68B94].map decode
      = [.ext (.g 5) (.g 6) 0xB 0x25, .extx (.g 5) (.g 6) 0xB 0x25, .ins (.g 5) (.g 6) 0xB 0x25].map .ok := rfl

/-- Words of the branch family, put together from the match and the fields of spec/opcode_table.json. -/
theorem test_decode_branch :
    [0x40C71E4B, 0x44C71E4B, 0x48C71E4B, 0x4CC71E4B, 0x50C71E4B, 0x54C71E4B, 0x582D1E4B, 0x5C2D1E4B].map decode
      = [.beq (.g 6) (.g 7) 0x1E4B, .bne (.g 6) (.g 7) 0x1E4B, .blt (.g 6) (.g 7) 0x1E4B, .bge (.g 6) (.g 7) 0x1E4B,
        .bltn (.g 6) (.g 7) 0x1E4B, .bgen (.g 6) (.g 7) 0x1E4B, .j 0x2D1E4B, .jal 0x2D1E4B].map .ok := rfl

/-- Words of the jump family, put together from the match and the fields of spec/opcode_table.json. -/
theorem test_decode_jump :
    [0x60060000, 0x60A60080].map decode
      = [.jr (.g 6), .jalr (.g 5) (.g 6)].map .ok := rfl

/-- Words of the mark family, put together from the match and the fields of spec/opcode_table.json. -/
theorem test_decode_mark :
    [0x64001E4B, 0x64201E4B, 0x64401E4B].map decode
      = [.align 0x1E4B, .bsig 0x1E4B, .bsigt 0x1E4B].map .ok := rfl

/-- Words of the nest family, put together from the match and the fields of spec/opcode_table.json. -/
theorem test_decode_nest :
    [0x68C01E4B, 0x6C00FFFB].map decode
      = [.nest (.g 6) 0x1E4B, .next 0xFFFB].map .ok := rfl

/-- Words of the load store family, put together from the match and the fields of spec/opcode_table.json. -/
theorem test_decode_load_store :
    [0x8086B24B, 0x8486B24B, 0x8886B24B, 0x8C86F24B, 0x9086F24B, 0x9486F24B].map decode
      = [.ld (.g 4) (.g 6) .w true .pk 0x24B, .ldx (.g 4) (.g 6) .w true .pk 0x24B, .st (.g 4) (.g 6) .w true .pk 0x24B,
        .ldf (.g 4) (.g 6) true .pk 0x24B, .stf (.g 4) (.g 6) true .pk 0x24B, .ldff (.g 4) (.g 6) true .pk 0x24B].map .ok := rfl

/-- Words of the atom family, put together from the match and the fields of spec/opcode_table.json. -/
theorem test_decode_atom :
    [0x9886F000, 0x9886F080, 0x9886F100, 0x9886F180, 0x9886F200, 0x9886F280, 0x9886F300, 0x9886F380].map decode
      = [.faa (.g 4) (.g 6) true true .pk, .fxch (.g 4) (.g 6) true true .pk, .fcas (.g 4) (.g 6) true true .pk,
        .fmin (.g 4) (.g 6) true true .pk, .fmax (.g 4) (.g 6) true true .pk, .fand (.g 4) (.g 6) true true .pk,
        .forA (.g 4) (.g 6) true true .pk, .fxor (.g 4) (.g 6) true true .pk].map .ok := rfl

/-- Words of the memory control family, put together from the match and the fields of spec/opcode_table.json. -/
theorem test_decode_memory_control :
    [0x9C060000, 0x9C060080, 0x9CA60100, 0x9C060180, 0x9C000240, 0x9CA60280, 0x9C060300, 0x9C060380, 0x9C060400].map decode
      = [.watch (.g 6), .unwatch (.g 6), .waita (.g 5) (.g 6), .pref (.g 6), .fence .pk, .migr (.g 5) (.g 6), .sete (.g 6),
        .setf (.g 6), .flush (.g 6)].map .ok := rfl

/-- Words of the message family, put together from the match and the fields of spec/opcode_table.json. -/
theorem test_decode_message :
    [0xA0063800, 0xA0063880, 0xA0A00100, 0xA0000180, 0xA0060200].map decode
      = [.send (.g 6) (.g 7), .tsend (.g 6) (.g 7), .tdeq (.g 5), .tnull, .advt (.g 6)].map .ok := rfl

/-- Words of the barrier family, put together from the match and the fields of spec/opcode_table.json. -/
theorem test_decode_barrier :
    [0xA4063800, 0xA4A601C1, 0xA40602C1, 0xA4063BC0].map decode
      = [.binit (.g 6) (.g 7), .arv (.g 5) (.g 6) true .pk 1, .arvp (.g 6) true .pk 1, .bwt (.g 6) (.g 7) true .pk].map .ok := rfl

/-- Words of the scrub wait family, put together from the match and the fields of spec/opcode_table.json. -/
theorem test_decode_scrub_wait :
    [0xA848D000].map decode
      = [.wait 1 2 3 4].map .ok := rfl

/-- Words of the task family, put together from the match and the fields of spec/opcode_table.json. -/
theorem test_decode_task :
    [0xAC063820, 0xAC000080, 0xAC000100, 0xAC000180, 0xAC063A00, 0xAC060280, 0xAC060300, 0xAC060380].map decode
      = [.spawn (.g 6) (.g 7) 2, .wfw, .halt, .yield, .ctxs (.g 6) (.g 7), .ctxr (.g 6), .prmt (.g 6), .lnch (.g 6)].map .ok := rfl

/-- Words of the activity family, put together from the match and the fields of spec/opcode_table.json. -/
theorem test_decode_activity :
    [0xB0A60000, 0xB0060080, 0xB0000100, 0xB0060180, 0xB0060200, 0xB0A60280, 0xB0063B00, 0xB0060380].map decode
      = [.actb (.g 5) (.g 6), .actj (.g 6), .actd, .acte (.g 6), .acta (.g 6), .actst (.g 5) (.g 6), .cpush (.g 6) (.g 7),
        .cret (.g 6)].map .ok := rfl

/-- Words of the system family, put together from the match and the fields of spec/opcode_table.json. -/
theorem test_decode_system :
    [0xC0A00340, 0xC0060341].map decode
      = [.mfs (.g 5) 0x34, .mts (.g 6) 0x34].map .ok := rfl

/-- Words of the trap family, put together from the match and the fields of spec/opcode_table.json. -/
theorem test_decode_trap :
    [0xC4001E4B, 0xC4200000, 0xC4460012, 0xC4601E4B, 0xC4861E4B].map decode
      = [.trap 0x1E4B, .tret, .settle (.g 6) 1 2, .brk 0x1E4B, .scrub (.g 6) 0x1E4B].map .ok := rfl

/-- Words of the vector fp family, put together from the match and the fields of spec/opcode_table.json. -/
theorem test_decode_vector_fp :
    [0xE0A62003, 0xE0A62023, 0xE0A62043, 0xE0A70863, 0xE0A70883, 0xE0A620A3, 0xE0A620C3, 0xE0A018E3, 0xE0A01903, 0xE0A62123,
     0xE0A01943, 0xE0A01963, 0xE0A01983, 0xE0A019A3, 0xE0A019C3, 0xE0A05A03, 0xE0A623A3, 0xE0A01C43].map decode
      = [.vaddFp 1 2 3 4 .f32 3, .vsubFp 1 2 3 4 .f32 3, .vmulFp 1 2 3 4 .f32 3, .vfma 1 2 3 4 1 .f32 3,
        .vfms 1 2 3 4 1 .f32 3, .vminFp 1 2 3 4 .f32 3, .vmaxFp 1 2 3 4 .f32 3, .vabsFp 1 2 3 .f32 3, .vnegFp 1 2 3 .f32 3,
        .vdiv 1 2 3 4 .f32 3, .vsqrt 1 2 3 .f32 3, .vrcp 1 2 3 .f32 3, .vrsq 1 2 3 .f32 3, .vexp2 1 2 3 .f32 3,
        .vlog2 1 2 3 .f32 3, .vcvt 1 2 .f64 3 .f32 3, .vcmpFp 1 2 3 4 5 .f32 3, .vredFp 1 2 3 2 .f32 3].map .ok := rfl

/-- Words of the vector int family, put together from the match and the fields of spec/opcode_table.json. -/
theorem test_decode_vector_int :
    [0xE4A6201B, 0xE4A6203B, 0xE4A6205B, 0xE4A620BB, 0xE4A620DB, 0xE4A018FB, 0xE4A0191B, 0xE4A6223B, 0xE4A6225B, 0xE4A6227B,
     0xE4A6229B, 0xE4A622BB, 0xE4A622DB, 0xE4A622FB, 0xE4A623BB, 0xE4A01C3B, 0xE4A6251B, 0xE4A6253B, 0xE4A6255B, 0xE4A6257B,
     0xE480159B, 0xE48015BB].map decode
      = [.vaddInt 1 2 3 4 .i16 3, .vsubInt 1 2 3 4 .i16 3, .vmulInt 1 2 3 4 .i16 3, .vminInt 1 2 3 4 .i16 3,
        .vmaxInt 1 2 3 4 .i16 3, .vabsInt 1 2 3 .i16 3, .vnegInt 1 2 3 .i16 3, .vand 1 2 3 4 .i16 3, .vor 1 2 3 4 .i16 3,
        .vxor 1 2 3 4 .i16 3, .vandn 1 2 3 4 .i16 3, .vshl 1 2 3 4 .i16 3, .vshr 1 2 3 4 .i16 3, .vsha 1 2 3 4 .i16 3,
        .vcmpInt 1 2 3 4 5 .i16 3, .vredInt 1 2 3 1 .i16 3, .vsel 1 2 3 4 .i16 3, .vperm 1 2 3 4 .i16 3,
        .vslup 1 2 3 4 .i16 3, .vsldn 1 2 3 4 .i16 3, .viota 1 2 .i16 3, .vpopk 1 2 .i16 3].map .ok := rfl

/-- Words of the vector memory family, put together from the match and the fields of spec/opcode_table.json. -/
theorem test_decode_vector_memory :
    [0xE8A41003, 0xE8A41023, 0xE8A49843, 0xE8A49863, 0xE8A51883, 0xE8A518A3, 0xE8A400C2, 0xE8A400E2].map decode
      = [.vld 1 (.g 9) 2 .f32 3, .vst 1 (.g 9) 2 .f32 3, .vlds 1 (.g 9) 2 3 .f32 3, .vsts 1 (.g 9) 2 3 .f32 3,
        .vgath 1 (.g 9) 2 3 .f32 3, .vscat 1 (.g 9) 2 3 .f32 3, .vldk 1 (.g 9) 2, .vstk 1 (.g 9) 2].map .ok := rfl

/-- Words of the vector scalar family, put together from the match and the fields of spec/opcode_table.json. -/
theorem test_decode_vector_scalar :
    [0xECA41003, 0xECA48023, 0xEC808043, 0xECA40062, 0xEC810083].map decode
      = [.vbcst 1 (.g 9) 2 .f32 3, .vins 1 (.g 9) 2 .f32 3, .vext 1 2 .f32 3, .vsetk 1 (.g 9) 2, .vmovk 1 2 3].map .ok := rfl

/-- Words of the matrix family, put together from the match and the fields of spec/opcode_table.json. -/
theorem test_decode_matrix :
    [0xF0C04000, 0xF0C74400, 0xF0C74800, 0xF0C74C00, 0xF0C05000, 0xF0C75400, 0xF0005802, 0xF0C05C00].map decode
      = [.mcfg (.g 6) 1, .mwl (.g 6) (.g 7) 1, .mma (.g 6) (.g 7) 1, .macp (.g 6) (.g 7) 1, .mclr (.g 6) 1,
        .mstage (.g 6) (.g 7) 1, .mpri 1 2, .mcan (.g 6) 1].map .ok := rfl

/-- Words of the copy family, put together from the match and the fields of spec/opcode_table.json. -/
theorem test_decode_copy :
    [0xF4C74230, 0xF4C74630, 0xF4C74A00, 0xF4C74A10, 0xF4C74EC8, 0xF4C752D0, 0xF4005400].map decode
      = [.csetb (.g 6) (.g 7) 1 2 3, .csetd (.g 6) (.g 7) 1 2 3, .csetsScale (.g 6) (.g 7) 1 2,
        .csetsMcast (.g 6) (.g 7) 1 2, .cgo (.g 6) (.g 7) 1 2 3 1, .cgoc (.g 6) (.g 7) 1 2 3 2, .ccan 1].map .ok := rfl

/-! ### Small states -/

/-- Thread 1 at 0x1000 with g5 = 7, g6 = 3, g8 = an address of the scratchpad of core 0x200, g10 = 0x2000. -/
def th1 : Thread := { Thread.zero with tid := 1, pc := 0x1000, gpr := [(5, 7), (6, 3), (8, 0x8000000010000100), (10, 0x2000)] }

/-- A state whose one context runs thread t on core 0x200, its banks up. -/
def one (cid : Nat) (t : Thread) : State :=
  { State.reset with
    cur := cid
    ctxs := [(cid, { Ctx.zero with run := .runnable, th := t, fetchPc := t.pc })]
    cores := [(coreOf cid, { Core.zero with powered := true })] }

/-- Context 1 and context 0 of core 0x200. -/
def w1 : State := one 0x2001 th1
def w0 : State := one 0x2000 th1

/-- Changes the one context, its core, its thread. -/
def cx (s : State) (f : Ctx → Ctx) : State := s.withMe f
def co (s : State) (f : Core → Core) : State := s.onCore s.here f
def tx (s : State) (f : Thread → Thread) : State := s.withTh f

/-- A descriptor of one element at an address. -/
def d1 (x : Word) : Desc := ⟨x, 0, 6, [], [], none, 0, none⟩

/-- The outcome is a next state with property p. -/
def ans (o : Host.Outcome State Fault Refusal) (p : State → Bool) : Bool :=
  match o with
  | .next t => p t
  | _ => false

theorem ans_spec {o : Host.Outcome State Fault Refusal} {p : State → Bool} (h : ans o p = true) : ∃ t, o = .next t ∧ p t = true := by
  cases o with
  | next t => exact ⟨t, rfl, h⟩
  | fault f => cases h
  | refused r => cases h

/-- Memory that holds numbers of some bytes at some keys. -/
def memOf (l : List (Nat × Nat × Nat)) : Memory := l.foldl (fun m p => m.put p.1 (leBytes p.2.1 p.2.2)) []

/-- An address of the scratchpad of core 0x200, and the same as the key of its memory. -/
def A : Word := 0x8000000010000100
def K : Nat := 0x8000000010000100

/-- The state with one message in flight. -/
def nt (s : State) (src dst : Nat) (b : Body) : State := { s with net := [⟨src, dst, b⟩] }

/-! ### What the statements assume can be met: encoding and the machine -/

theorem witness_DecodeOfEncode :
    ([.li (.g 15) 0xFFFF, .settle (.g 3) 15 2, .ext (.g 5) .pc 0x3F 0, .scrub .zr 0x2000, .next 0x8000, .vsel 7 7 7 4 .i8 3] : List Instr).all
      (fun i => i.wf && !i.isEvent) = true := by decide

theorem witness_EncodeOfDecode : decode 0xFFFFFFFF = .error .reservedMajor ∧ decode 0x5BFFFFFF = .ok (.j 0x3FFFFFF) := ⟨rfl, rfl⟩

theorem witness_UnassignedWordsAreIllegal :
    ([0x00000000, 0x03FFFFFF, 0x3C000000, 0x3FFFFFFF, 0x70000000, 0x7FFFFFFF, 0xB4000000, 0xBFFFFFFF, 0xC8000000, 0xDFFFFFFF, 0xF8000000,
      0xFFFFFFFF] : List Word32).all (fun w => (decode w).toOption.isNone) = true
    ∧ (cx w1 (fun c => { c with injected := [⟨0, 0x1000, 0x7FFFFFFF, .none, .none, .none, none, 0, .none, none, 0, [], false⟩] })).fetched
        = some 0x7FFFFFFF := ⟨by decide, rfl⟩

/-- The state that withFetchWord makes of reset, and the state in which its context performs the packet. -/
def fs : State := State.reset.withFetchWord 32 0x04A63800
def fv : State := { fs with turn := 1, cur := 0x2000 }
def fu : State := { (fv.beforeTurn 0x200).passes 0x200 with cur := 0x2000 }

theorem witness_StepRunsDecoded_turn : fs.Turn fu 0x200 ∧ fu.Opens :=
  ⟨⟨⟨fv, 0x2000, by decide +kernel⟩, by decide +kernel⟩, .inl (by decide +kernel), by decide +kernel, by decide +kernel, by decide +kernel,
    by decide +kernel⟩

theorem witness_StepRunsDecoded_word : fu.fetched = some 0x04A63800 ∧ decode 0x04A63800 = .ok (.add (.g 5) (.g 6) (.g 7))
    ∧ (fu.me.injected.map (fun p => (p.op, p.cause.isNone))) = [(0x04A63800, true)]
    ∧ fs.pageOf (globalBase + fs.asnOf 0x2000 * 2 ^ 48 + 0x10000) = some fs.probePage ∧ fs.probePage.x = true
    ∧ (let s := { fu with agenda := [.packet 0x2000] };
      ({ s with agenda := [] }).mayPerform 0x2000 = true ∧ ({ s with agenda := [], cur := 0x2000 }).fetched = some 0x04A63800) :=
  ⟨by decide +kernel, rfl, by decide +kernel⟩

theorem witness_StepRunsDecoded_plain : ∃ t, exec (.add (.g 5) (.g 6) (.g 7)) fu = .next t ∧ fu.Plain t := by
  obtain ⟨t, h, hp⟩ := ans_spec (o := exec (.add (.g 5) (.g 6) (.g 7)) fu) (p := fun t => (fu.causeOf t).isNone) (by decide +kernel)
  exact ⟨t, h, ⟨by decide +kernel, by decide +kernel, by decide +kernel, by decide +kernel, Option.isNone_iff_eq_none.1 hp,
    .inl (by decide +kernel)⟩⟩

theorem witness_EveryStepAnswersNext :
    ({ State.reset with agenda := [.event .powerUp] }).agenda = .event .powerUp :: [] ∧ Instr.isEvent .powerUp = true ∧ Instr.isEvent .tret = false := ⟨rfl, rfl, rfl⟩

theorem witness_StepKeepsMemoryCanonical : fs.MemOk ∧ ∃ t, step fs = .next t :=
  ⟨show fs.mem.wf = true by decide +kernel, (ans_spec (p := fun _ => true) (by decide +kernel)).imp (fun _ h => h.1)⟩

theorem witness_MemoryReadsBack : Memory.wf [(3, 1), (2 ^ 64, 0xFF)] = true := by decide

theorem witness_CausesAreTaken :
    (let s := tx w1 (fun t => { t with tvec := 0x800 });
      s.th.tvec ≠ 0 ∧ s.th.inTrap = false ∧ bit (s.core s.here).deleg (Cause.code .trap).toNat = false)
    ∧ (ctxOf w1.cur ≠ 0 ∧ w1.th.tvec = 0 ∧ (w1.th.routine.isSome && w1.th.tvec == 0) = false)
    ∧ (ctxOf w0.cur = 0 ∧ w0.th.tvec = 0 ∧ (w0.th.routine.isSome && w0.th.tvec == 0) = false) := by decide

theorem witness_TrapBrkAndTret :
    (w1.core w1.here).dbg.claim = false ∧ ((co w1 (fun c => { c with dbg := { c.dbg with claim := true } })).core 0x200).dbg.claim = true
    ∧ (let s := tx w0 (fun t => { t with inTrap := true, cause := 0x2000 });
      let s := (s.onCtx 0x200F (fun c => { c with run := .parked .delegation })).onCore 0x200 (fun c =>
        { c with presented := some ⟨some 15, .trap, .precise, 0, 7⟩ });
      s.th.inTrap = true ∧ s.th.settled = true ∧ ctxOf s.cur = 0 ∧ (s.ctx (s.scoreOwner s.cur)).th.settled = true ∧ bit s.th.cause 13 = true
        ∧ (s.core s.here).presented = some ⟨some 15, .trap, .precise, 0, 7⟩ ∧ (s.ctx (s.here * 16 + 15)).run = .parked .delegation)
    ∧ (let s := tx w1 (fun t => { t with inTrap := true, score := [(0, ⟨⟨1, 0, none, 0, 0, .none⟩, false⟩)] });
      s.th.inTrap = true ∧ s.th.settled = false ∧ s.sigFails .tret false = false)
    ∧ w1.th.inTrap = false := by decide

theorem witness_PrivilegeIsChecked :
    ctxOf w1.cur ≠ 0 ∧ ctxOf w0.cur = 0 ∧ w1.th.inTrap = false ∧ w1.th.comp = false ∧ (tx w1 (fun t => { t with comp := true })).th.comp = true := by
  decide

/-! ### One step of each instruction of the integer unit -/

/-- g7 after instruction i in context 1 with g5 = x and g6 = y: at once, or where the divider gives it later. -/
def gives (i : Instr) (x y e : Word) : Bool :=
  let s := tx w1 (fun t => { t with gpr := [(5, x), (6, y), (7, 0x5A)] })
  ans (exec i s) (fun t => (t.me.view 7 == some e || ((t.core 0x200).divq.map (fun d => d.value)) == [e]) && t.th.pc == 0x1004)

/-- R122, R123 and R125, by hand from their pseudocode. -/
theorem test_integer :
    ([ (.add (.g 7) (.g 5) (.g 6), -1, 1, 0), (.addw (.g 7) (.g 5) (.g 6), 0x7FFFFFFF, 1, 0xFFFFFFFF80000000),
      (.sub (.g 7) (.g 5) (.g 6), 0, 1, -1), (.subw (.g 7) (.g 5) (.g 6), 0, 1, -1), (.andR (.g 7) (.g 5) (.g 6), 12, 10, 8),
      (.orR (.g 7) (.g 5) (.g 6), 12, 10, 14), (.xorR (.g 7) (.g 5) (.g 6), 12, 10, 6), (.andn (.g 7) (.g 5) (.g 6), 12, 10, 4),
      (.orn (.g 7) (.g 5) (.g 6), 0, 1, -2), (.shl (.g 7) (.g 5) (.g 6), 1, 64, 0), (.shlw (.g 7) (.g 5) (.g 6), 1, 31, 0xFFFFFFFF80000000),
      (.shr (.g 7) (.g 5) (.g 6), -1, 63, 1), (.shrw (.g 7) (.g 5) (.g 6), 0x80000000, 0, 0xFFFFFFFF80000000),
      (.sha (.g 7) (.g 5) (.g 6), 0x8000000000000000, 100, -1), (.shaw (.g 7) (.g 5) (.g 6), 0x80000000, 4, 0xFFFFFFFFF8000000),
      (.rotl (.g 7) (.g 5) (.g 6), 0x8000000000000001, 65, 3), (.rotlw (.g 7) (.g 5) (.g 6), 0xC0000000, 33, 0xFFFFFFFF80000001),
      (.slt (.g 7) (.g 5) (.g 6), -1, 0, 1), (.sltn (.g 7) (.g 5) (.g 6), -1, 0, 0), (.seq (.g 7) (.g 5) (.g 6), 3, 3, 1),
      (.sne (.g 7) (.g 5) (.g 6), 3, 3, 0), (.min (.g 7) (.g 5) (.g 6), -1, 2, -1), (.max (.g 7) (.g 5) (.g 6), -1, 2, 2),
      (.minn (.g 7) (.g 5) (.g 6), -1, 2, 2), (.maxn (.g 7) (.g 5) (.g 6), -1, 2, -1) ] : List (Instr × Word × Word × Word)).all
      (fun p => gives p.1 p.2.1 p.2.2.1 p.2.2.2) = true := by decide +kernel

/-- R124, R126 to R128, R131, R132 and R134, by hand; SPA of 0x0A5 and 0x100 and an INS of two bytes among them. -/
theorem test_fields :
    ([ (.shli (.g 7) (.g 5) 8 1, 1, 0, 0x10000000000), (.shliw (.g 7) (.g 5) 31, 1, 0, 0xFFFFFFFF80000000), (.shri (.g 7) (.g 5) 31 1, -1, 0, 1),
      (.shriw (.g 7) (.g 5) 0, 0x80000000, 0, 0xFFFFFFFF80000000), (.shai (.g 7) (.g 5) 31 1, -2, 0, -1), (.shaiw (.g 7) (.g 5) 4, 0x80000000, 0, 0xFFFFFFFFF8000000),
      (.sel (.g 7) (.g 5) (.g 6), 1, 2, 1), (.spa (.g 7) (.g 5) (.g 6), 0x0A5, 0x100, 0x8000000005280100), (.spx (.g 7) (.g 5), 0x8000000005280100, 0, 0x0A5),
      (.spx (.g 7) (.g 5), 0x5280100, 0, -1), (.home (.g 7) (.g 5), 0x8000000010000100, 0, 0x200), (.home (.g 7) (.g 5), 0x100, 0, -1),
      (.clz (.g 7) (.g 5), 1, 0, 63), (.clzw (.g 7) (.g 5), 0x100000000, 0, 32), (.ctz (.g 7) (.g 5), 0, 0, 64), (.ctzw (.g 7) (.g 5), 0x100000000, 0, 32),
      (.pop (.g 7) (.g 5), -1, 0, 64), (.popw (.g 7) (.g 5), -1, 0, 32), (.brev (.g 7) (.g 5), 1, 0, 0x8000000000000000),
      (.brevw (.g 7) (.g 5), 1, 0, 0xFFFFFFFF80000000), (.bswap (.g 7) (.g 5), 0x0102030405060708, 0, 0x0807060504030201),
      (.bswapw (.g 7) (.g 5), 0x80, 0, 0xFFFFFFFF80000000), (.addi (.g 7) (.g 5) 0xFFFF, 0, 0, -1), (.andi (.g 7) (.g 5) 0xFFFF, -1, 0, 0xFFFF),
      (.ori (.g 7) (.g 5) 0x8000, 1, 0, 0x8001), (.xori (.g 7) (.g 5) 0xFFFF, 0xF, 0, 0xFFF0), (.slti (.g 7) (.g 5) 0, -1, 0, 1),
      (.sltni (.g 7) (.g 5) 5, 4, 0, 1), (.li (.g 7) 0x8000, 0, 0, 0xFFFFFFFFFFFF8000), (.lih (.g 7) 0x8000, 0, 0, 0x80000000),
      (.addiw (.g 7) (.g 5) 1, 0x7FFFFFFF, 0, 0xFFFFFFFF80000000), (.ext (.g 7) (.g 5) 12 7, 0x12345, 0, 0x12), (.extx (.g 7) (.g 5) 8 7, 0x8000, 0, 0xFFFFFFFFFFFFFF80),
      (.ins (.g 7) (.g 5) 16 15, 0xABCD, 0, 0xABCD005A) ] : List (Instr × Word × Word × Word)).all
      (fun p => gives p.1 p.2.1 p.2.2.1 p.2.2.2) = true := by decide +kernel

/-- R129 and R130: the spec's own values and its table, and the W corners. -/
theorem test_multiply_divide :
    ([ (.mul (.g 7) (.g 5) (.g 6), -1, 2, -2), (.mulw (.g 7) (.g 5) (.g 6), 0x10000, 0x8000, 0xFFFFFFFF80000000), (.mulh (.g 7) (.g 5) (.g 6), -1, 1, -1),
      (.mulhn (.g 7) (.g 5) (.g 6), -1, 2, 1), (.muli (.g 7) (.g 5) 0xFFFF, 3, 0, -3), (.div (.g 7) (.g 5) (.g 6), 7, -2, -3),
      (.rem (.g 7) (.g 5) (.g 6), 7, -2, 1), (.rem (.g 7) (.g 5) (.g 6), -7, 2, -1), (.div (.g 7) (.g 5) (.g 6), 0x8000000000000000, -1, 0x8000000000000000),
      (.divw (.g 7) (.g 5) (.g 6), 0x80000000, 0xFFFFFFFF, 0xFFFFFFFF80000000), (.remw (.g 7) (.g 5) (.g 6), 0x80000000, 0xFFFFFFFF, 0),
      (.divn (.g 7) (.g 5) (.g 6), 5, 0, -1), (.remn (.g 7) (.g 5) (.g 6), 5, 0, 5), (.divnw (.g 7) (.g 5) (.g 6), 0xFFFFFFFF, 1, -1),
      (.remnw (.g 7) (.g 5) (.g 6), 0x180000000, 0, 0xFFFFFFFF80000000) ] : List (Instr × Word × Word × Word)).all
      (fun p => gives p.1 p.2.1 p.2.2.1 p.2.2.2) = true := by decide +kernel

/-! ### What the statements assume can be met: operands and the integer unit -/

/-- Context 1 of core 0x200 awaiting a late value in g5. -/
def wl : State := cx w1 (fun c => { c with awaited := [(5, 3)] })

theorem witness_RegistersReadAndWrite :
    w1.lateReg (.g 5) = none ∧ w1.lateReg (.g 6) = none ∧ wl.lateReg (.g 5) = some 5 ∧ wl.lateReg (.g 6) = none ∧ w1.me.injected = []
    ∧ w1.me.view 5 = some 7 ∧ wl.me.view 5 = none ∧ landsLast w1.seqNow 15 w1.me.landing = true := by decide

theorem witness_LanesAndPorts :
    (let s := one 0x0001 th1;
      s.badPort (.port .west) = true ∧ s.badPort (.g 5) = false ∧ s.badPort (.port .east) = false)
    ∧ w1.lanesReady w1.cur (some .mq) (some .zr) (some (.g 7)) = false
    ∧ (let s := tx w1 (fun t => { t with mq := [⟨1, 2⟩], vq := [⟨3, 4⟩], cq := [⟨5, 6⟩, ⟨7, 8⟩] });
      s.lanesReady s.cur (some .cq) (some .cq) (some (.g 7)) = true ∧ s.th.mq = [⟨1, 2⟩] ∧ s.th.vq = [⟨3, 4⟩] ∧ s.th.cq = [⟨5, 6⟩, ⟨7, 8⟩])
    ∧ (w1.setFifo w1.cur .south ⟨[9], 1⟩).fifo w1.cur .south = ⟨[9], 1⟩ ∧ w1.facing .east ≠ w1.cur := by decide +kernel

/-- Forms of each kind that read lanes: their operands and their destination. -/
theorem witness_LanesAndPorts_forms :
    ([ (.add (.port .east) .ib .mq, .ib, .mq, .port .east), (.addi (.g 1) .ib 5, .ib, .zr, .g 1), (.sel (.g 1) .vq .cq, .vq, .cq, .zr),
      (.mul (.g 1) .mq .vq, .mq, .vq, .g 1), (.div (.g 1) .mq .vq, .mq, .vq, .g 1), (.mfs (.port .west) 0x001, .zr, .zr, .port .west),
      (.mts .mq 0x030, .mq, .zr, .zr), (.send .mq .vq, .mq, .vq, .zr), (.vbcst 0 .mq 0 .i32 0, .mq, .zr, .zr), (.csetb .mq .vq 0 0 0, .mq, .vq, .zr),
      (.mwl .mq .vq 0, .mq, .vq, .zr), (.mcfg .mq 0, .mq, .zr, .zr), (.home (.g 1) .ib, .ib, .zr, .g 1) ] : List (Instr × Reg × Reg × Reg)).all
      (fun p => laneForm w1 p.1 == some p.2) = true ∧ (laneForm w1 (.jr .mq)).isNone = true := by decide +kernel

/-- A message for context 1 behind one for context 2, among the hardware entries; and one in a ring of 32 bytes. -/
def wib : State := co w1 (fun c => { c with ib := [⟨2, ⟨5, 6⟩⟩, ⟨1, ⟨7, 8⟩⟩] })
def wri : State :=
  { co w1 (fun c => { c with inoff := 0x20, insize := 4, ringUsed := 24 }) with mem := memOf [(K, 8, 1 * 64 + 1), (K + 8, 8, 9), (K + 16, 8, 10)] }

theorem witness_LanesAndPorts_inbox :
    (wib.core wib.here).ib = [⟨2, ⟨5, 6⟩⟩] ++ ⟨1, ⟨7, 8⟩⟩ :: [] ∧ ctxOf wib.cur = 1 ∧ (wri.core wri.here).ib = []
    ∧ wri.ringOf wri.here = some (K, 32) ∧ wri.ringPending wri.here (fun c => c == ctxOf wri.cur) = [0]
    ∧ (wri.core (padCore (K + 0))).groups = [] ∧ (K + 0) % 8 = 0 := by decide +kernel

theorem witness_IntegerUnitResults :
    ∃ q u x y, aluForm (.rotlw (.g 15) .pc .wid) = some q ∧ w1.operands q.a q.b q.d = .ok u x y ∧ w1.Signed (.rotlw (.g 15) .pc .wid) false :=
  ⟨_, _, _, _, rfl, rfl, rfl⟩

theorem witness_CountFieldAndImmediateResults :
    (∃ q u x y, fieldForm (.extx (.g 7) (.g 5) 0x3F 0) = some q ∧ w1.operands q.a q.b q.d = .ok u x y ∧ w1.Signed (.extx (.g 7) (.g 5) 0x3F 0) false)
    ∧ (∃ q u x y, mergeForm (.ins (.g 6) (.g 5) 0 0x3F) = some q ∧ Instr.wf (.ins (.g 6) (.g 5) 0 0x3F) = true ∧ w1.lateReg q.d = none
      ∧ w1.operands q.a q.b q.d = .ok u x y ∧ w1.Signed (.ins (.g 6) (.g 5) 0 0x3F) false)
    ∧ (∃ q, mergeForm (.sel (.g 5) (.g 5) (.g 6)) = some q ∧ wl.lateReg q.d = some 5) :=
  ⟨⟨_, _, _, _, rfl, rfl, rfl⟩, ⟨_, _, _, _, rfl, rfl, rfl, rfl, rfl⟩, ⟨_, rfl, rfl⟩⟩

/-- The key of address space 0 of the whole package, and a 64 KiB page of it that may be read, written and executed. -/
def SP : Nat := spaceOf 0xFF 0
def pg (vpn pfn : Nat) : Page := ⟨SP, false, vpn, pfn, true, true, true, false, false⟩

/-- Context 1 in a partition whose placement table has one range of 4,096 bytes over die 1. -/
def wr : State := { w1 with parts := [(w1.partOf (dieOf 0x200), ⟨[], 0, [⟨0x2000, 0x1000, 0x1000, 2, false, false⟩]⟩)] }

theorem witness_HomeGivesTheHomeOfAnAddress :
    (∃ u x y, w1.operands (.g 8) .zr (.g 7) = .ok u x y ∧ w1.Signed (.home (.g 7) (.g 8)) false ∧ w1.homeOf w1.cur x = some 0x200)
    ∧ (∃ u x y, w1.operands (.g 5) .zr (.g 7) = .ok u x y ∧ w1.Signed (.home (.g 7) (.g 5)) false ∧ w1.homeOf w1.cur x = none)
    ∧ (isWindow 0x2001 0x8000000010000100 = false ∧ isCore (0x8000000010000100 / 2 ^ 19 % 4096) = true
      ∧ w1.partOf (dieOf (0x8000000010000100 / 2 ^ 19 % 4096)) = w1.partOf (dieOf (coreOf 0x2001)))
    ∧ isWindow 0x2001 0x8000000080000000 = false ∧ isWindow 0x2001 0x7FFFFFFFFFFFFFFF = false ∧ isWindow 0x2001 0xFFFFFFFFFFFF = false
    ∧ (w1.lateReg (.g 8) = none ∧ Reg.srcOk (.g 8) = true ∧ Reg.dstOk (.g 7) = true ∧ landsLast w1.seqNow 7 w1.me.landing = true)
    ∧ w1.rangesOf 0x2001 = [] ∧ (0x2345 : Word).toNat < 2 ^ 48 ∧ wr.rangesOf 0x2001 = [] ++ ⟨0x2000, 0x1000, 0x1000, 2, false, false⟩ :: [] :=
  ⟨⟨_, _, _, rfl, rfl, by decide +kernel⟩, ⟨_, _, _, rfl, rfl, by decide +kernel⟩, by decide +kernel⟩

theorem witness_MultiplyAndDivideResults :
    (∃ q u x y, mulForm (.mulh (.g 7) (.g 5) (.g 6)) = some q ∧ w1.mulFree = true ∧ w1.operands q.a q.b q.d = .ok u x y
      ∧ w1.Signed (.mulh (.g 7) (.g 5) (.g 6)) false)
    ∧ (co w1 (fun c => { c with mul := some 3 })).mulFree = false
    ∧ (∃ q u x y, divForm (.rem (.g 7) (.g 5) (.g 6)) = some q ∧ w1.operands q.a q.b q.d = .ok u x y ∧ w1.Signed (.rem (.g 7) (.g 5) (.g 6)) false
      ∧ (w1.core w1.here).divLoad < 5 ∧ w1.me.outld < 16 ∧ q.d.isPort = false ∧ divLens (.rem (.g 7) (.g 5) (.g 6)) = some (fun x y => divLen (-2 ^ 63) x.toInt y.toInt))
    ∧ (∃ q u x y, divForm (.divnw (.port .east) (.g 5) (.g 6)) = some q ∧ w1.operands q.a q.b q.d = .ok u x y
      ∧ w1.Signed (.divnw (.port .east) (.g 5) (.g 6)) false ∧ q.d = .port .east)
    ∧ divLen (-2 ^ 63) (w1.plain (.g 5)).toInt (w1.plain (.g 6)).toInt = 5 ∧ divLen (-2 ^ 63) 7 0 = 2
    ∧ 5 ≤ ((co w1 (fun c => { c with divq := (List.range 5).map (fun n => ⟨0x2002, 0, BitVec.ofNat 8 n, none, 0, 40 + n, .late⟩) })).core 0x200).divLoad :=
  ⟨⟨_, _, _, _, rfl, rfl, rfl, rfl⟩, rfl, ⟨_, _, _, _, rfl, rfl, rfl, by decide, by decide, rfl, rfl⟩, 
    ⟨_, w1, 7, 3, rfl, rfl, rfl, rfl⟩, by decide +kernel⟩

theorem witness_IntegerUnitFrame :
    ∃ q, aluForm (.add (.g 7) (.g 5) (.g 6)) = some q ∧ q.a.srcOk = true ∧ q.b.srcOk = true ∧ q.d.dstOk = true ∧ w1.lateReg q.a = none
      ∧ w1.lateReg q.b = none ∧ w1.Signed (.add (.g 7) (.g 5) (.g 6)) false ∧ (∃ t, exec (.add (.g 7) (.g 5) (.g 6)) w1 = .next t)
      ∧ ∀ n ∈ regsOf q.d, landsLast w1.seqNow n w1.me.landing = true :=
  ⟨_, rfl, rfl, rfl, rfl, rfl, rfl, rfl, ⟨_, rfl⟩, by decide⟩

/-- The shapes of the integer unit that keep more: an INS, a MULH and a DIV whose registers are there, and a HOME. -/
theorem witness_IntegerUnitFrame_others :
    (mergeForm (.ins (.g 7) (.g 5) 0 3)).isSome = true ∧ Instr.wf (.ins (.g 7) (.g 5) 0 3) = true
    ∧ (mulForm (.mulh (.g 7) (.g 5) (.g 6))).isSome = true ∧ w1.mulFree = true
    ∧ (divForm (.div (.g 7) (.g 5) (.g 6))).isSome = true ∧ (w1.core w1.here).divLoad < 5 ∧ w1.me.outld < 16
    ∧ ([.g 5, .g 6, .g 7, .g 8] : List Reg).all (fun r => r.srcOk && r.dstOk && (w1.lateReg r).isNone) = true
    ∧ ([.ins (.g 7) (.g 5) 0 3, .mulh (.g 7) (.g 5) (.g 6), .div (.g 7) (.g 5) (.g 6), .home (.g 7) (.g 8)] : List Instr).all
      (fun i => !w1.sigFails i false && ans (exec i w1) (fun _ => true)) = true := by decide +kernel

/-- Context 1 in a checked block that ends before a BSIG, with wrong expected values. -/
def wcb : State :=
  { tx w1 (fun t => { t with sig := ⟨true, true, 0xFFFF, 1, 0, 0, []⟩ }) with
    pages := [pg 0 0]
    mem := [(globalBase + 0x1006, 0x20), (globalBase + 0x1007, 0x64)] }

theorem witness_PacketsFinishOrFailTheirSignature :
    w1.th.sig.en = false ∧ (∃ q u x y, aluForm (.add (.g 7) (.g 5) (.g 6)) = some q ∧ wcb.operands q.a q.b q.d = .ok u x y
      ∧ wcb.sigFails (.add (.g 7) (.g 5) (.g 6)) false = true) := ⟨rfl, ⟨_, _, _, _, rfl, rfl, by decide +kernel⟩⟩

/-! ### What the statements assume can be met: control flow and memory -/

theorem witness_BranchesAndJumps :
    (∃ u x y, w1.operands (.g 5) (.g 6) .zr = .ok u x y ∧ w1.Signed (.beq (.g 5) (.g 6) 0x8000) false ∧ w1.Signed (.bne (.g 5) (.g 6) 0x8000) true)
    ∧ w1.Signed (.j 0x2000000) true ∧ w1.Signed (.jal 0x1FFFFFF) true
    ∧ (∃ u x y, w1.operands (.g 10) .zr .zr = .ok u x y ∧ x.toNat % 4 = 0 ∧ x.toNat < 2 ^ 48 ∧ w1.Signed (.jalr (.g 5) (.g 10)) true)
    ∧ (∃ u x y, w1.operands (.g 5) .zr .zr = .ok u x y ∧ x.toNat % 4 ≠ 0)
    ∧ (∃ u x y, w1.operands (.g 8) .zr .zr = .ok u x y ∧ x.toNat % 4 = 0 ∧ 2 ^ 48 ≤ x.toNat) :=
  ⟨⟨_, _, _, rfl, rfl, rfl⟩, rfl, rfl, ⟨_, _, _, rfl, by decide +kernel⟩, ⟨w1, 7, 0, rfl, by decide⟩, ⟨w1, A, 0, rfl, by decide⟩⟩

/-- A second context of the cluster: runnable, or holding an ALIGN where context 1 stands. -/
def wa (run : Run) : State := w1.onCtx 0x2002 (fun _ => { Ctx.zero with run := run, th := { Thread.zero with pc := 0x1000 } })

theorem witness_AlignAndSignatureMarks :
    (cx w1 (fun c => { c with answered := true })).me.answered = true ∧ w1.me.answered = false
    ∧ (wa (.waiting (.align 9))).alignMet 0x2001 = true ∧ ((wa (.waiting (.align 9))).ctx 0x2002).holdsAlign 0x1000 = true
    ∧ 0x2002 ∈ (wa (.waiting (.align 9))).siblings 0x2001 ∧ (wa .runnable).alignMet 0x2001 = false
    ∧ (wa (.waiting (.align 9))).Signed (.align 5) false ∧ w1.Signed (.align 0) false := by decide +kernel

/-- A nest descriptor at the address in g8, its counter 64 bytes above it: 10 iterations, extents 4 and 3, P 2, MINC 3. -/
def wn : State :=
  { w1 with mem := memOf [(K, 8, K + 64), (K + 8, 8, 10), (K + 0x10, 4, 4), (K + 0x14, 4, 3), (K + 0x20, 4, 2), (K + 0x24, 4, 3)] }

/-- The conditions on a nest at the address in g8, then p of its descriptor's fields and the state it goes on in. -/
def nestAt (s : State) (p : Nest → State → Bool) : Bool :=
  let h := s.homeNow (s.plain (.g 8))
  let r := s.flushWcb s.cur h
  !s.orderHeld s.cur h && !r.orderHeld s.cur h && !r.onWay s.cur h &&
  match r.fetcherKey (s.plain (.g 8)) false with
  | .ok k => match r.load k 64 with
    | some (_, u) =>
      let f := nestOf s.mem k s.th.nest
      f.ctr.toNat % 8 == 0 && !u.badAddr u.cur f.ctr && (u.fetcherKey f.ctr true).toOption.isSome && p f u
    | none => false
  | .error _ => false

/-- A nest with a claim of the counter at K + 64, made at 0x1000, whose outcome is back. -/
def claimed (s : State) (i stop : Nat) (out : Option (Nat × Nat)) : State :=
  let ctr := BitVec.ofNat 64 (K + 64)
  tx s (fun t => { t with nest := { t.nest with active := true, ctr := ctr, i := i, stop := stop, claims := [⟨0x1000, 0, ctr, 10, 2, 3, some out⟩] } })

theorem witness_NestsTakeTheirIterations :
    (wn.ready2 (.g 8) .zr = none ∧ wn.addrFault (wn.plain (.g 8)) 64 64 = none)
    ∧ nestAt (claimed wn 0 0 (some (5, 10))) (fun f u => u.claimOut f.ctr == some (some (5, 10)) && !u.sigFails (.nest (.g 8) 4) false) = true
    ∧ nestAt (claimed wn 0 0 none) (fun f u => u.claimOut f.ctr == some none && !u.sigFails (.nest (.g 8) 4) true) = true
    ∧ nestAt wn (fun f u => u.claimOut f.ctr == none && !u.claimOpen f.ctr && u.direct f.ctr
        && (match u.home u.here (u.req f.ctr .claim none) with
          | (w, .value x none) => (claimOf x.toNat f.n f.p f.minc).1 == some (0, 5)
              && (let b := (w.home u.here { u.req f.ctr .claim none with op := .stf 5 }).1
                !b.th.sig.en && b.cur == wn.cur && b.th.nest.claims == u.th.nest.claims && b.th.pc == u.th.pc)
          | _ => false)) = true
    ∧ (let s := tx w1 (fun t => { t with nest := { t.nest with active := true, i := 4, stop := 10 } });
      s.th.nest.i + 1 < s.th.nest.stop ∧ s.Signed (.next 0xFFFC) true)
    ∧ (let s := claimed w1 4 5 (some (5, 10));
      s.th.nest.active = true ∧ s.th.nest.stop ≤ s.th.nest.i + 1 ∧ s.me.barred = none ∧ s.claimOut s.th.nest.ctr = some (some (5, 10))
        ∧ s.Signed (.next 0xFFFC) true)
    ∧ (let s := claimed w1 9 10 none;
      s.th.nest.active = true ∧ s.th.nest.stop ≤ s.th.nest.i + 1 ∧ s.me.barred = none ∧ s.claimOut s.th.nest.ctr = some none
        ∧ s.Signed (.next 0xFFFC) false) := by decide +kernel

theorem witness_AccessChecksItsAddress :
    (∃ f, memForm w1 (.ld (.g 7) (.g 8) .d false .co 0) = some f ∧ f.n ≤ 8 ∧ w1.ready2 f.a f.b = none ∧ isWindow w1.cur f.x = false)
    ∧ (∃ f, memForm w1 (.ld (.g 7) (.g 5) .w false .co 0) = some f ∧ w1.ready2 f.a f.b = none ∧ isWindow w1.cur f.x = false
      ∧ f.x.toNat % f.n ≠ 0)
    ∧ (∃ f, memForm w1 (.ldf (.g 7) (.g 10) false .co 0) = some f ∧ isWindow w1.cur f.x = false ∧ f.x.toNat % f.n = 0 ∧ w1.homeOf w1.cur f.x = none)
    ∧ (∃ f, memForm w1 (.stf (.g 7) (.g 8) false .co 0) = some f
      ∧ (co w1 (fun c => { c with inoff := 0x20, insize := 32 })).hitsRing w1.cur f.x f.n = true)
    ∧ (co w1 (fun c => { c with retained := some 5 })).retainedFor w1.cur 0x200 = true :=
  ⟨⟨_, rfl, by decide, rfl, by decide⟩, ⟨_, rfl, by decide +kernel⟩, ⟨_, rfl, (by decide +kernel : _ ∧ _ ∧ _)⟩, ⟨_, rfl, by decide +kernel⟩,
    by decide +kernel⟩

/-! ### What the statements assume can be met: requests and homes -/

/-- Nothing holds a memory operation back, in a form that evaluates: operands, address and order; what a release waits for; the
counts; and the limits of the form. -/
abbrev ClearAt (s : State) (f : MemForm) : Prop :=
  (s.ready2 f.a f.b = none ∧ s.addrFault f.x f.n f.n = none ∧ s.orderHeld s.cur (s.homeNow f.x) = false ∧ s.travels s.cur f.x = false)
    ∧ f.rel.all (fun c => s.flushAll s.cur == s && s.releaseWait c == none) = true
    ∧ ((f.posted = true ∧ s.me.unack < 32) ∨ (f.posted = false ∧ s.me.outld < 16))
    ∧ s.th.resv.length < Config.resvMax
    ∧ (match f.op with
      | .binit b => decide (b.toNat % 2 ^ 20 ≠ 0 ∧ b.toNat < 2 ^ 21)
      | _ => true) = true
    ∧ (f.n ≠ 16 ∨ isPad f.x = true) ∧ isWindow s.cur f.x = false

theorem clear_of {s : State} {f : MemForm} (h : ClearAt s f) : s.Clear f where
  regs := h.1.1
  addr := h.1.2.1
  order := h.1.2.2.1
  stays := fun _ _ e => absurd (h.1.2.2.2.symm.trans e) (by decide)
  release := fun c e => by simpa [e] using h.2.1
  room := by rcases h.2.2.1 with e | e <;> simp [e]
  resv := fun _ => h.2.2.2.1
  object := fun b e => by simpa [e] using h.2.2.2.2.1
  inPad := fun e => h.2.2.2.2.2.1.resolve_left (absurd e)
  noWindow := h.2.2.2.2.2.2

/-- Context 1 with an address of the scratchpad of core 0x201 in g9, and one of die 1's global range, mapped, in g10. -/
def wg : State :=
  { tx w1 (fun t => { t with gpr := t.gpr.set 9 (A + 0x80000) }) with
    parts := [(w1.partOf (dieOf 0x200), ⟨[], 0, [⟨0x2000, 0x1000, 0x1000, 2, false, false⟩]⟩)]
    pages := [pg 0 0] }

theorem witness_OwnScratchpadAnswersAtOnce :
    (∃ f, memForm w1 (.ldff (.g 7) (.g 8) true .th 1) = some f ∧ w1.Clear f ∧ w1.direct f.x = true ∧ w1.Signed (.ldff (.g 7) (.g 8) true .th 1) false
      ∧ f.posted = false ∧ (∃ u v, w1.home w1.here (w1.reqOf f) = (u, .value v none)))
    ∧ (∃ f, memForm w1 (.st (.g 5) (.g 8) .w true .di 0x3FF) = some f ∧ w1.Clear f ∧ w1.direct f.x = true
      ∧ w1.Signed (.st (.g 5) (.g 8) .w true .di 0x3FF) false ∧ f.posted = true ∧ (∃ u, w1.home w1.here (w1.reqOf f) = (u, .acked none))) :=
  ⟨⟨_, rfl, clear_of (by decide +kernel), by decide +kernel, by decide +kernel, rfl, ⟨_, _, rfl⟩⟩,
    ⟨_, rfl, clear_of (by decide +kernel), by decide +kernel, by decide +kernel, rfl, ⟨_, rfl⟩⟩⟩

/-- The same with the line at 0x2000 in the L1 of core 0x200. -/
def wgl : State := wg.onCore 0x200 (fun c => { c with l1 := [⟨vkey SP (0x2000 : Word), [8, 9] ++ List.replicate 30 0⟩] })

theorem witness_RequestsGoToTheHome :
    (∃ f, memForm wg (.ld (.g 7) (.g 9) .h false .co 1) = some f ∧ wg.Clear f ∧ wg.direct f.x = false
      ∧ wg.Signed (.ld (.g 7) (.g 9) .h false .co 1) false ∧ f.posted = false ∧ isPad f.x = true)
    ∧ (∃ f, memForm wg (.ldx (.g 7) (.g 10) .b false .co 1) = some f ∧ wg.Clear f ∧ wg.direct f.x = false
      ∧ wg.Signed (.ldx (.g 7) (.g 10) .b false .co 1) false ∧ f.posted = false
      ∧ wg.buffered wg.cur (vkey (wg.asnOf wg.cur) f.x) f.n = none ∧ wg.copyOf f.x f.n = none)
    ∧ (∃ f, memForm wg (.setf (.g 10)) = some f ∧ wg.Clear f ∧ wg.direct f.x = false ∧ wg.Signed (.setf (.g 10)) false ∧ f.posted = true
      ∧ ∀ bs n, f.op ≠ .store bs n)
    ∧ (∃ f, memForm wg (.st (.g 5) (.g 10) .h false .co 0) = some f ∧ wg.Clear f ∧ wg.direct f.x = false ∧ isPad f.x = false
      ∧ f.op = .store ([7, 0].mapIdx (fun k b => (k, b))) 1)
    ∧ (let s := wg.onCore 0x200 (fun c => { c with wcb := [⟨0x2001, wg.homeNow 0x2000, vkey SP (0x2000 : Word), [(0, 7)], 1, wg.req 0x2000 (.store [(0, 7)] 1) none⟩] });
      s.buffered s.cur (vkey (s.asnOf s.cur) 0x2000) 1 = some 7)
    ∧ (∃ f, memForm wgl (.ldx (.g 7) (.g 10) .b false .co 1) = some f ∧ wgl.Clear f ∧ wgl.direct f.x = false
      ∧ wgl.Signed (.ldx (.g 7) (.g 10) .b false .co 1) false ∧ isPad f.x = false ∧ f.op = .load 1 true
      ∧ wgl.buffered wgl.cur (vkey (wgl.asnOf wgl.cur) f.x) 1 = none ∧ wgl.copyOf f.x f.n = some [9] ∧ wgl.pendingTo (wgl.homeNow f.x) = false
      ∧ wgl.translate (vkey (wgl.asnOf wgl.cur) f.x) false = .ok (globalBase + 0x2001)) :=
  ⟨⟨_, rfl, clear_of (by decide +kernel), by decide +kernel, by decide +kernel, rfl, by decide +kernel⟩,
    ⟨_, rfl, clear_of (by decide +kernel), by decide +kernel, by decide +kernel, rfl, by decide +kernel, by decide +kernel⟩,
    ⟨_, rfl, clear_of (by decide +kernel), by decide +kernel, by decide +kernel, rfl, fun _ _ h => by cases h⟩,
    ⟨_, rfl, clear_of (by decide +kernel), by decide +kernel, by decide +kernel, rfl⟩, by decide +kernel,
    ⟨_, rfl, clear_of (by decide +kernel), by decide +kernel, by decide +kernel, by decide +kernel, rfl, by decide +kernel, by decide +kernel,
      by decide +kernel, by rfl⟩⟩

/-- A context whose earlier store to its own scratchpad is on its way, so that a load of it stays at stage 6; and, free of that, an LDF
on its way, which only the load and the ST may pass. -/
def wow : State := nt w1 0x200 0x200 (.req ⟨0x2001, 1, 0, none, A, K, .store [(0, 7)] 1, 0⟩)

theorem witness_OwnScratchpad_siding :
    (∃ f, memForm wow (.ld (.g 7) (.g 8) .b false .co 0) = some f ∧ wow.Clear f ∧ f.op.inSiding = true ∧ wow.ownPad f.x = true
      ∧ wow.ownFree = false ∧ wow.direct f.x = false ∧ wow.Signed (.ld (.g 7) (.g 8) .b false .co 0) false)
    ∧ (∃ f, memForm w1 (.ld (.g 7) (.g 8) .b false .co 0) = some f ∧ w1.Clear f ∧ f.op.inSiding = true ∧ w1.ownPad f.x = true ∧ w1.ownFree = true) :=
  ⟨⟨_, rfl, clear_of (by decide +kernel), rfl, rfl, by decide +kernel, by decide +kernel, by decide +kernel⟩,
    ⟨_, rfl, clear_of (by decide +kernel), rfl, rfl, by decide +kernel⟩⟩

theorem witness_ScratchpadLoadsAndStores :
    (w1.direct (BitVec.ofInt 64 ((w1.plain (.g 8)).toNat + (0x3FF : BitVec 10).toInt * sizeBytes .d)) = true ∧ (w1.core w1.here).powered = true
      ∧ (w1.core w1.here).groups = [] ∧ (w1.core w1.here).badWords = [] ∧ (w1.core w1.here).softWords = [] ∧ w1.MemOk)
    ∧ (∃ f, memForm w1 (.ld (.g 7) (.g 8) .d false .co 0x3FF) = some f ∧ w1.Clear f ∧ w1.Signed (.ld (.g 7) (.g 8) .d false .co 0x3FF) false)
    ∧ (∃ f, memForm w1 (.ldx (.g 7) (.g 8) .d false .co 0x3FF) = some f ∧ w1.Clear f ∧ w1.Signed (.ldx (.g 7) (.g 8) .d false .co 0x3FF) false)
    ∧ (∃ f, memForm w1 (.st (.g 7) (.g 8) .d false .co 0x3FF) = some f ∧ w1.Clear f ∧ w1.Signed (.st (.g 7) (.g 8) .d false .co 0x3FF) false) :=
  ⟨by decide +kernel, ⟨_, rfl, clear_of (by decide +kernel), by decide +kernel⟩, ⟨_, rfl, clear_of (by decide +kernel), by decide +kernel⟩,
    ⟨_, rfl, clear_of (by decide +kernel), by decide +kernel⟩⟩

/-- The conditions on FAA of g5 at the address in a register, at any home. -/
def atomAt (s : State) (a : Reg) : Bool :=
  s.ready2 a (.g 5) == none && s.lateReg .zr == none && s.addrFault (s.plain a) 8 8 == none && !s.orderHeld s.cur (s.homeNow (s.plain a))
    && !s.travels s.cur (s.plain a) && decide (s.th.resv.length < Config.resvMax) && decide (s.me.unack < 32) && decide (s.me.outld < 16)
    && s.flushAll s.cur == s && !s.sigFails (.faa (.g 5) a true true .th) false

theorem padword_w1 : w1.PadWord 0x200 K := ⟨by decide, by decide, by decide, by decide, rfl, rfl, rfl, rfl, fun _ h => by cases h⟩

theorem witness_AtomicsReserveAndRelease :
    atomForm (.faa (.g 5) (.g 8) true true .th) = some ⟨.add, .g 5, .g 8, true, true, .th, .zr⟩
    ∧ atomAt w1 (.g 8) = true ∧ w1.direct (w1.plain (.g 8)) = true
    ∧ w1.PadWord w1.here K ∧ BitVec.ofNat 64 ((w1.plain (.g 8)).toNat / 8 * 8) = BitVec.ofNat 64 K
    ∧ (w1.full w1.here K = true ∧ (w1.core w1.here).atoms = [] ∧ w1.me.posted = [] ∧ w1.me.lates = [] ∧ w1.vstores w1.cur = []
      ∧ (Scope.drains .pk = true → w1.wbDrained w1.here = true))
    ∧ atomAt wg (.g 9) = true ∧ wg.direct (wg.plain (.g 9)) = false ∧ atomAt wg (.g 10) = true ∧ wg.direct (wg.plain (.g 10)) = false :=
  ⟨rfl, by decide +kernel, by decide +kernel, padword_w1, by decide, by decide +kernel⟩

/-- A request of context 1 of core 0x200, and one of context 1 of core 0x201, whose thread is 5, for the word at K. -/
def rq (op : ReqOp) : Req := ⟨0x2001, 1, 0, none, A, K, op, 0⟩
def rq' (op : ReqOp) : Req := ⟨0x2011, 5, 0, none, A, K, op, 0⟩

/-- The word at K empty, reserved by thread 5. -/
def we : State := w1.onCore 0x200 (fun c => { c with reserved := [(K, ⟨false, some 5⟩)] })

theorem padword_we : we.PadWord 0x200 K := ⟨by decide, by decide, by decide, by decide, rfl, rfl, rfl, rfl, fun _ h => by cases h⟩

theorem witness_FullEmptyWords :
    w1.PadWord 0x200 K ∧ w1.full 0x200 K = true ∧ we.PadWord 0x200 K ∧ we.full 0x200 K = false
    ∧ (let s := we.onCtx 0x2011 (fun c => { c with run := .runnable, th := { th1 with tid := 5 } });
      (s.ctx 0x2011).holdsThread = true ∧ (s.ctx 0x2011).th.tid = (rq' .ldf).tid ∧ (rq' .ldf).tid ≠ 0)
    ∧ (let s := (we.onCtx 0x2011 (fun c => { c with run := .runnable, th := { th1 with tid := 5 } })).onCore 0x200 (fun c => { c with waits := [⟨rq' .ldf, K⟩] });
      (s.core 0x200).waits = [⟨rq' .ldf, K⟩] ∧ (rq' .ldf).key = K ∧ (s.core 0x200).powered = true ∧ s.full 0x200 K = false ∧ s.MemOk
        ∧ (s.ctx 0x2011).holdsThread = true ∧ (s.ctx 0x2011).th.tid = (rq' .ldf).tid
        ∧ s.cores.all (fun e => e.2.watches.isEmpty && e.2.resends.isEmpty) = true) :=
  ⟨padword_w1, by decide +kernel, padword_we, by decide +kernel, by decide +kernel, by decide +kernel⟩

theorem witness_HomesKeepWatches :
    w1.PadWord 0x200 K ∧ (w1.senderHere (rq .watch) = true ∧ w1.senderHere (rq' .watch) = false) ∧ (K, 0x2001) ∉ (w1.core 0x200).watches
    ∧ (w1.core 0x200).watches.length < 32
    ∧ ((w1.onCore 0x200 (fun c => { c with watches := List.replicate 32 (K + 8, 5) })).core 0x200).watches.length = 32
    ∧ (∃ u, (w1.onCore 0x200 (fun c => { c with watches := [(K, 0x2011)] })).store K [5] = some u)
    ∧ coreOf 0x2011 ≠ 0x200 ∧ coreOf 0x2001 = 0x200 :=
  ⟨padword_w1, by decide +kernel, by decide +kernel, by decide +kernel, by decide +kernel, ⟨_, rfl⟩, by decide⟩

/-- A barrier object at K: phase 3, 4 expected, 1 arrived. -/
def wb : State := { w1 with mem := memOf [(K, 8, 3 * 2 ^ 40 + 4 * 2 ^ 20 + 1)] }

theorem padword_wb : wb.PadWord 0x200 K ∧ wb.PadWord 0x200 (K + 8) :=
  ⟨⟨by decide, by decide, by decide, by decide, rfl, rfl, rfl, rfl, fun _ h => by cases h⟩,
    ⟨by decide, by decide, by decide, by decide, rfl, rfl, rfl, rfl, fun _ h => by cases h⟩⟩

theorem witness_BarrierObjects :
    wb.PadWord 0x200 K ∧ wb.PadWord 0x200 (K + 8) ∧ K % 16 = 0 ∧ (wb.mem.word K).toNat / 2 ^ 40 % 16 = 3
    ∧ (wb.mem.word K).toNat / 2 ^ 20 % 2 ^ 20 = 4 ∧ (wb.mem.word K).toNat % 2 ^ 20 = 1 ∧ (wb.mem.word K).toNat / 2 ^ 45 % 2 = 0
    ∧ dieOf 0x200 ≠ 0 ∧ (wb.core 0x200).waits.length < 64 := ⟨padword_wb.1, padword_wb.2, by decide +kernel⟩

/-- Requests for K on their way to core 0x200, from a thread that is still in its context. -/
def wp : State := w1.onCtx 0x2011 (fun _ => { Ctx.zero with run := .runnable, th := { th1 with tid := 5 } })
def wq (op : ReqOp) : State := nt wp 0x201 0x200 (.req (rq' op))

theorem witness_HomeStepsAnswerRequests :
    (wq .ldf).msgAt 0 = some ⟨0x201, 0x200, .req (rq' .ldf)⟩ ∧ (wq .ldf).severed 0x201 0x200 = false ∧ isHub 0x200 = false
    ∧ (rq' .ldf).cid < agentCid ∧ ((wq .ldf).dropMsg 0).keptBefore 0x200 (rq' .ldf) = false ∧ ((wq .ldf).dropMsg 0).writeAhead 0x200 (rq' .ldf) = false
    ∧ (((wq .ldf).onCore 0x200 (fun c => { c with helds := [rq' (.stf 5)] })).dropMsg 0).keptBefore 0x200 (rq' .ldf) = true
    ∧ ((wq (.load 8 false)).home 0x200 (rq' (.load 8 false))).2 = .value 0 none ∧ ((wq (.stf 5)).home 0x200 (rq' (.stf 5))).2 = .queued
    ∧ ((wq .setf).home 0x200 (rq' .setf)).2 = .acked none ∧ ((wq .watch).home 0x200 (rq' .watch)).2 = .answered (some 1)
    ∧ padKey K = true ∧ (State.reset.core 0x200).powered = false
    ∧ padKey (vkey SP 0x5000) = false ∧ w1.pageOf (vkey SP 0x5000) = none
    ∧ w1.grows ⟨0x2001, 0, 0, none, 0x5000, vkey SP 0x5000, .load 8 false, 0⟩ = false
    ∧ ({ w1 with pages := [⟨SP, false, 0, 0, true, false, false, false, false⟩] }).pageOf (vkey SP 0x5000)
      = some ⟨SP, false, 0, 0, true, false, false, false, false⟩ := by decide +kernel

/-- What HomesPerformTheirRequests asks of a state and a request, but for the operation's own conditions. -/
def askedAt (s : State) (r : Req) : Prop :=
  s.msgAt 0 = some ⟨0x201, 0x200, .req r⟩ ∧ isHub 0x200 = false ∧ r.cid < agentCid ∧ s.severed 0x201 0x200 = false ∧ (s.core 0x200).helds = []
    ∧ (s.core 0x200).hosted = [] ∧ r.key = K ∧ s.PadWord 0x200 K

theorem asked_of {s : State} {r : Req} (h : s.msgAt 0 = some ⟨0x201, 0x200, .req r⟩ ∧ r.cid < agentCid ∧ s.severed 0x201 0x200 = false
    ∧ (s.core 0x200).helds = [] ∧ (s.core 0x200).hosted = [] ∧ r.key = K) (hp : s.PadWord 0x200 K) : askedAt s r :=
  ⟨h.1, by decide, h.2.1, h.2.2.1, h.2.2.2.1, h.2.2.2.2.1, h.2.2.2.2.2, hp⟩

theorem nt_msgAt (s : State) (a b : Nat) (m : Body) (hc : s.clockStops b = false) :
    (nt s a b m).msgAt 0 = some ⟨a, b, m⟩ := by
  simp only [State.msgAt, State.routerHolds, nt, List.getElem?_cons_zero, List.take_zero, List.any_nil, Bool.or_false]
  exact if_neg (fun h => absurd (hc.symm.trans ((Bool.and_eq_true ..).mp h).2) (by decide))

/-- A request for K on its way to core 0x200 where the word is empty, and where it is a barrier object. -/
def wqe (op : ReqOp) : State := nt we 0x201 0x200 (.req (rq' op))
def wqb (op : ReqOp) : State := nt wb 0x201 0x200 (.req (rq' op))

theorem witness_HomesPerformTheirRequests :
    (∀ op ∈ [ReqOp.load 8 false, .store ([1, 2].mapIdx (fun j b => (j, b))) 1, .ldf, .ldff, .sete, .setf, .reserve .add true false 7 0, .watch, .unwatch,
        .waita, .flush], askedAt (wq op) (rq' op))
    ∧ (wq .ldf).full 0x200 K = true ∧ ((wq .watch).core 0x200).watches.length < 32 ∧ (wq .watch).senderHere (rq' .watch) = true
    ∧ (∀ op ∈ [ReqOp.stf 5, .release 5], askedAt (wqe op) (rq' op)) ∧ (wqe (.stf 5)).full 0x200 K = false
    ∧ (∀ op ∈ [ReqOp.binit 4, .arv 2 (dieOf 0x200) false, .bwt 7], askedAt (wqb op) (rq' op) ∧ (wqb op).PadWord 0x200 (K + 8))
    ∧ K % 16 = 0 ∧ ((wqb (.arv 2 (dieOf 0x200) false)).mem.word K).toNat % 2 ^ 20 + 2 < ((wqb (.bwt 7)).mem.word K).toNat / 2 ^ 20 % 2 ^ 20
    ∧ (7 : BitVec 4).toNat ≠ ((wqb (.bwt 7)).mem.word K).toNat / 2 ^ 40 % 16 :=
  ⟨fun op _ => asked_of ⟨nt_msgAt wp _ _ _ (by decide +kernel), (by decide : 0x2011 < agentCid), by rfl, by rfl, by rfl, rfl⟩ ⟨(by decide : wp.MemOk), by decide, by decide, by decide, rfl, rfl, rfl, rfl, fun _ h => by cases h⟩,
    by decide +kernel, by decide +kernel, by decide +kernel,
    fun op _ => asked_of ⟨nt_msgAt we _ _ _ (by decide +kernel), (by decide : 0x2011 < agentCid), by rfl, by rfl, by rfl, rfl⟩ ⟨(by decide : we.MemOk), by decide, by decide, by decide, rfl, rfl, rfl, rfl, fun _ h => by cases h⟩,
    by decide +kernel,
    fun op _ => ⟨asked_of ⟨nt_msgAt wb _ _ _ (by decide +kernel), (by decide : 0x2011 < agentCid), by rfl, by rfl, by rfl, rfl⟩ ⟨(by decide : wb.MemOk), by decide, by decide, by decide, rfl, rfl, rfl, rfl, fun _ h => by cases h⟩,
      (by decide : wb.MemOk), by decide, by decide, by decide, rfl, rfl, rfl, rfl, fun _ h => by cases h⟩,
    by decide, by decide +kernel, by decide +kernel⟩

/-! ### What the statements assume can be met: waits, travel, messages and local time -/

/-- Context 1 of core 0x200 watching the word at K, whose value is 5; g5 is 7 and g6 is 5 here. -/
def ww : State :=
  { tx w1 (fun t => { t with gpr := t.gpr.set 6 5 }) with mem := memOf [(K, 8, 5)] }.withMe (fun c => { c with watching := [(K, false)] })
   |>.onCore 0x200 (fun c => { c with watches := [(K, 0x2001)] })

theorem witness_WatchAndWaitAtOwnScratchpad :
    (ww.ready2 (.g 8) (.g 5) = none ∧ ww.ready2 (.g 8) .zr = none ∧ ww.direct (ww.plain (.g 8)) = true ∧ ww.addrFault (ww.plain (.g 8)) 8 8 = none
      ∧ ww.addrFault (ww.plain (.g 8)) 16 16 = none ∧ ww.watches (ww.plain (.g 8)) = true ∧ w1.watches (w1.plain (.g 8)) = false
      ∧ ww.orderHeld ww.cur (ww.homeNow (ww.plain (.g 8))) = false ∧ w1.orderHeld w1.cur (w1.homeNow (w1.plain (.g 8))) = false)
    ∧ (w1.home w1.here (w1.req A .watch none)).2 = .answered (some 1)
    ∧ ww.me.watching.find (ww.watchKey (ww.plain (.g 8))) ≠ some true
    ∧ ((ww.withMe (fun c => { c with ready := false })).home ww.here (ww.req A .waita none)).2 = .answered (some 5)
    ∧ (5 : Word) ≠ ww.plain (.g 5) ∧ (5 : Word) = ww.plain (.g 6)
    ∧ ((ww.withMe (fun c => { c with ready := false })).home ww.here (ww.req A .waita none)).1.me.ready = false
    ∧ (wb.home wb.here (wb.req A (.bwt (BitVec.ofNat 4 (wb.plain (.g 5)).toNat)) none)).2 = .answered none
    ∧ (wb.home wb.here (wb.req A (.bwt (BitVec.ofNat 4 (wb.plain (.g 6)).toNat)) none)).2 = .queued
    ∧ (w1.plain (.g 8)).toNat = K ∧ (K, w1.cur) ∉ (w1.core w1.here).watches ∧ (w1.core w1.here).watches.length < 32
    ∧ 32 ≤ ((w1.onCore 0x200 (fun c => { c with watches := List.replicate 32 (K + 8, 5) })).core 0x200).watches.length
    ∧ w1.me.holdsThread = true ∧ ww.th.sig.en = false ∧ ww.mem.word K ≠ ww.plain (.g 5) ∧ (wb.mem.word K).toNat / 2 ^ 40 % 16 ≠ (wb.plain (.g 5)).toNat % 16 := by decide +kernel

theorem padword_ww : ww.PadWord 0x200 K := ⟨by decide, by decide, by decide, by decide, rfl, rfl, rfl, rfl, fun _ h => by cases h⟩

theorem witness_PrefetchFenceFlushWait :
    (w1.ready2 (.g 8) .zr = none ∧ isPad (w1.plain (.g 8)) = true ∧ w1.Signed (.pref (.g 8)) false)
    ∧ (wg.ready2 (.g 10) .zr = none ∧ isPad (wg.plain (.g 10)) = false ∧ (wg.homeOf wg.cur (wg.plain (.g 10))).isSome = true
      ∧ (wg.pageOf (vkey (wg.asnOf wg.cur) (wg.plain (.g 10)))).isSome = true ∧ wg.copyOf (wg.plain (.g 10)) 1 = none)
    ∧ (wgl.copyOf (wgl.plain (.g 10)) 1).isSome = true
    ∧ (w1.me.barred = none ∧ w1.flushAll w1.cur = w1 ∧ w1.releaseWait .sy = none ∧ w1.Signed (.fence .sy) false)
    ∧ ((wgl.core wgl.here).wcb = [] ∧ (wgl.core wgl.here).l1.map (fun l => l.key) = [vkey (wgl.asnOf wgl.cur) (wgl.plain (.g 10)) / 32 * 32]
      ∧ wgl.me.unack < 32 ∧ (wgl.homeOf wgl.cur (wgl.plain (.g 10))).isSome = true ∧ wgl.Signed (.flush (.g 10)) false
      ∧ wgl.orderHeld wgl.cur (wgl.homeNow (wgl.plain (.g 10))) = false)
    ∧ (let s := cx w1 (fun c => { c with lates := [1, 2] }); s.me.outld = 2 ∧ s.outst s.cur = 0 ∧ s.outcp s.cur = 0 ∧ s.outmx s.cur = 0) := by
  decide +kernel

theorem witness_MigrCarriesTheThread :
    ctxOf w1.cur ≠ 0 ∧ w1.th.comp = false ∧ w1.ready2 (.g 8) (.g 5) = none ∧ w1.homeOf w1.cur (w1.plain (.g 8)) = some 0x200
    ∧ wg.homeOf wg.cur (wg.plain (.g 9)) = some 0x201 ∧ wg.ready2 (.g 9) (.g 5) = none ∧ wg.Signed (.migr (.g 5) (.g 9)) false ∧ wg.here = 0x200
    ∧ (wg.th.engineLive && wg.th.slot.isNone) = false ∧ wg.th.engineLive = false ∧ (wg.flushAll wg.cur).mayDepart wg.cur = true ∧ wg.th.sig.en = false := by
  decide +kernel

/-- Context 1 with SEND operands: g5 is core 0x201, context 1, tag 2, detail 3. -/
def wm : State := tx w1 (fun t => { t with gpr := t.gpr.set 5 0x0000000300021201 })

theorem witness_SendSendsItsMessage :
    (∃ u x y, wm.operands (.g 5) (.g 6) .zr = .ok u x y ∧ wm.badDest x = false ∧ u.behind wm.cur (x.toNat % 2 ^ 12) = false)
    ∧ wm.me.barred = none ∧ wm.me.unack < 32 ∧ wm.Signed (.send (.g 5) (.g 6)) false
    ∧ (isCore 0x400 = true ∧ ({ w1 with whole := false }).partOf (dieOf 0x400) ≠ ({ w1 with whole := false }).partOf (dieOf w1.here))
    ∧ (let s := wm.onCore 0x200 (fun c => { c with msgResends := [⟨rq .msg, 0x201, 1, 0, ⟨0, 0⟩, none, 9⟩] });
      s.me.barred = none ∧ s.behind s.cur 0x201 = true) :=
  ⟨⟨_, _, _, rfl, by decide +kernel, by decide +kernel⟩, rfl, by decide, by decide +kernel, by decide +kernel, by decide +kernel⟩

/-- Local time of core 0x200 in launch 0: one input link from core 0x201 at lookahead 4, announced 10, and one output link to it. -/
def lt1 : LTime := ⟨0, 5, [⟨0x201, 4, 10⟩], [⟨0x201, 3, 0, false, false, none⟩], [⟨9, 0x201, 0, ⟨1, 77⟩⟩], [], 0, 0, 0, 0, false, false, 0⟩
def wt : State := (tx wm (fun t => { t with tnext := 8 })).onCore 0x200 (fun c => { c with lt := some lt1, trounds := 3, cyc := 1000 })

theorem witness_LocalTime :
    (w1.ltOf w1.cur = none ∧ wt.ltOf wt.cur = some lt1 ∧ wt.me.barred = none)
    ∧ (∃ u x y, wt.operands (.g 5) (.g 6) .zr = .ok u x y ∧ wt.badDest x = false
      ∧ lt1.outs.find? (fun o => o.dst == x.toNat % 2 ^ 12) = some ⟨0x201, 3, 0, false, false, none⟩)
    ∧ (lt1.vt.toNat + 3 ≤ wt.th.tnext.toNat ∧ wt.me.unack < 32 ∧ wt.Signed (.tsend (.g 5) (.g 6)) false ∧ wt.behind wt.cur 0x201 = false)
    ∧ (tx wt (fun t => { t with tnext := 7 })).th.tnext.toNat < min (2 ^ 64 - 1) (lt1.vt.toNat + 3)
    ∧ (lt1.lane = [⟨9, 0x201, 0, ⟨1, 77⟩⟩] ∧ lt1.bound.toNat = 14 ∧ wt.tdeqOrder wt.here = [] ∧ wt.Signed (.tdeq (.g 7)) false)
    ∧ ({ lt1 with lane := [⟨14, 0x201, 0, ⟨1, 77⟩⟩] }).bound.toNat = 14
    ∧ (wt.Signed .tnull false ∧ wt.Signed (.advt (.g 5)) false ∧ (wt.core wt.here).lt = some lt1)
    ∧ wt.operands (.g 5) .zr .zr = .ok wt (wt.plain (.g 5)) 0
    ∧ (let t := { lt1 with outs := [⟨0x201, 3, 0, false, true, none⟩] };
      let s := wt.onCore 0x200 (fun c => { c with lt := some t });
      (((s.ltTouch 0x200).core 0x200).lt.bind (fun t => t.outs.find? (fun o => (o.dst == 0x201) && (s.ltTouch 0x200).mayAnnounce 0x200 t o))).isSome = true)
    ∧ ({ wt with net := [⟨0x201, 0x200, .announce 0x201 0 20⟩] }).msgAt 0 = some ⟨0x201, 0x200, .announce 0x201 0 20⟩
    ∧ (let t := { lt1 with ins := [⟨0x201, 0, 9⟩], vt := 9, rounds := 2, wasBlocked := true, lastB := 9, lastP := 9 };
      let s := (wt.onCore 0x200 (fun c => { c with lt := some t })).onCtx 0x2001 (fun c => { c with run := .waiting .time });
      ((s.ltTouch 0x200).core 0x200).lt = some t ∧ t.roundAt + 256 ≤ (s.core 0x200).cyc ∧ (s.core 0x200).dbg.stopped = false
        ∧ (s.ltTouch 0x200).ltBlocked 0x200 t = true ∧ (s.core 0x200).trounds ≠ 0 ∧ (s.core 0x200).trounds.toNat ≤ t.rounds + 1
        ∧ (s.ctx 0x2001).inTdeq = true ∧ (s.ctx 0x2001).th.launch = t.launch)
    ∧ (State.reset.onCore 0x200 (fun c => { c with lt := some { lt1 with launch := 9 } })).ltGone 0x200 { lt1 with launch := 9 } = true := by
  refine ⟨by decide +kernel, ⟨_, _, _, rfl, by decide +kernel⟩, ?_⟩
  and_intros <;> first | rfl | decide +kernel

/-! ### What the statements assume can be met: tasks, activities and system registers -/

/-- The key of launch 1 of the whole package, and the launch: on die 1, entry 0x4000, with two tasks. -/
def L1 : Nat := 0xFF * 2 ^ 32 + 1
def ln : Launch :=
  ⟨L1, 0xFF, SP, 0, 1, 2, 0x4000, [1, 2, 3, 4, 5, 6], [], [], [], [], 100, 10, 0, 0, 0, 0, 0, 0, 0, 0x2000, ⟨0xFF, SP, [⟨0x2000, 0x1000, 0x1000, 2, false, false⟩]⟩,
    1, false, 2, 0, false, 0, 0, 0,
    0, 0, 0, none⟩

/-- Context 1 in launch 1, with a task block at K; a launch block at K + 0x100 is all zeros. -/
def ws : State :=
  { tx w1 (fun t => { t with launch := L1, gpr := t.gpr.set 9 (A + 0x100) }) with launches := [ln], mem := memOf [(K, 8, 0x5000), (K + 8, 8, 11)] }

/-- A task of launch 1, for any die. -/
def tk : Task := ⟨L1, 0x5000, [1], 4, 1, none, none, none, true, 0, 0, 0⟩

/-- A die that takes no further task of launch 1. -/
def wfull : State := { ws.onDie 1 (fun d => { d with spawners := [(4, 0x2001)], queue := [tk] }) with launches := [{ ln with splim := 1 }] }

theorem witness_SpawnAndLnchSubmit :
    (∃ u x y w k, ws.operands (.g 8) .zr .zr = .ok u x y ∧ u.readBlock x 64 = .ok (w, k) ∧ w.spawnDie 0 y = .ok 1 ∧ x.toNat % 64 = 0
      ∧ ws.badAddr ws.cur x = false ∧ u.flushAll u.cur = u ∧ u.releaseWait .pk = none ∧ (w.mem.word k).toNat % 4 = 0
      ∧ (w.mem.word k).toNat < 2 ^ 48 ∧ w.spawnReady ws.cur 1 = true ∧ w.here = ws.here)
    ∧ ctxOf ws.cur ≠ 0 ∧ ws.Signed (.spawn (.g 8) .zr 0) false
    ∧ (∃ u x y, ws.operands (.g 8) (.g 9) .zr = .ok u x y ∧ ({ u with launches := [{ ln with dies := 6 }] }).spawnDie 2 2 = .ok 2)
    ∧ (∃ u x y w k, ws.operands (.g 9) .zr .zr = .ok u x y ∧ u.readBlock x 256 = .ok (w, k) ∧ x.toNat % 256 = 0 ∧ ws.badAddr ws.cur x = false
      ∧ u.flushAll u.cur = u ∧ u.releaseWait .sy = none ∧ w.blocksHeld (ws.partOf (dieOf ws.here)) < 64)
    ∧ ws.Signed (.lnch (.g 9)) false
    ∧ wfull.spawnReady 0x2001 1 = false :=
  ⟨⟨ws, A, 0, ws, K, rfl, rfl, rfl, by decide +kernel⟩, by decide, by decide, ⟨_, _, _, rfl, rfl⟩,
    ⟨ws, A + 0x100, 0, ws, K + 0x100, rfl, rfl, by decide +kernel⟩, by decide +kernel⟩

/-- Context 0 of core 0x200 with a start block at K: entry 0x5000, launch 1, mask 3. g5 is 7, g11 is 23. -/
def wz : State :=
  { tx w0 (fun t => { t with gpr := t.gpr.set 11 23 }) with launches := [ln], mem := memOf [(K, 8, 0x5000), (K + 8, 8, 2 ^ 32 + 3)] }

theorem witness_SupervisorStartsAndStopsContexts :
    (∃ u x y w k r, wz.operands (.g 5) (.g 8) .zr = .ok u x y ∧ x.toNat = 7 ∧ y.toNat % 64 = 0 ∧ wz.badAddr wz.cur y = false
      ∧ r = u.flushWcb wz.cur (u.homeNow y) ∧ (r.orderHeld wz.cur (u.homeNow y) || r.onWay wz.cur (u.homeNow y)) = false
      ∧ r.readBlock y 64 = .ok (w, k) ∧ (w.mem.word k).toNat % 4 = 0 ∧ (w.mem.word k).toNat < 2 ^ 48
      ∧ w.launchIn (dieOf wz.here) (wz.partOf (dieOf wz.here) * 2 ^ 32 + (w.mem.word (k + 8)).toNat / 2 ^ 32) = some ln
      ∧ (w.core wz.here).powered = true)
    ∧ (wz.ctx 0x2007).run = .vacant ∧ (wz.ctx 0x2007).reserved = none ∧ wz.Signed (.ctxs (.g 5) (.g 8)) false
    ∧ (let s := wz.onCtx 0x2007 (fun c => { c with run := .killed });
      (s.ctx 0x2007).run = .killed ∧ s.oldestArrival s.here = none ∧ s.oldestRescued s.here = none ∧ s.Signed (.ctxr (.g 5)) false)
    ∧ ((wz.onCtx 0x2007 (fun c => { c with run := .runnable })).ctx 0x2007).holdsThread = true
    ∧ (∃ p, (wz.onCore 0x200 (fun c => { c with cache := [⟨th1, .suspended, 7, 0, [], [], []⟩] })).oldestSuspended 0x200 = some p)
    ∧ wz.plain (.g 11) = 7 + 16 :=
  ⟨⟨_, 7, A, wz, K, _, rfl, by decide, by decide, by decide, rfl, by decide +kernel, rfl, by decide +kernel⟩,
    by decide +kernel, by decide +kernel, by decide +kernel, by decide +kernel, by decide +kernel, ⟨_, rfl⟩, by decide +kernel⟩

theorem witness_WfwHaltYield :
    (ctxOf w1.cur ≠ 0 ∧ w1.th.comp = false ∧ w1.th.actcur = 0 ∧ w1.me.unack = 0 ∧ w1.me.outld = 0 ∧ w1.th.settled = true ∧ w1.drained w1.cur = true
      ∧ w1.oldestArrival w1.here = none ∧ w1.oldestRescued w1.here = none)
    ∧ ([Instr.wfw, .halt, .yield].all (fun i => !w1.sigFails i false && !w0.sigFails i false)) = true
    ∧ ctxOf w0.cur = 0 ∧ w0.sleepOver w0.cur = false ∧ (cx w0 (fun c => { c with ready := true })).sleepOver w0.cur = true := by decide +kernel

/-- The handle of activity 0 of die 1, generation 1, domain 2; and context 1 with the handle in g11 and the activity there. -/
def H1 : Word := 0x0000000100010002
def wh (st : ActSt) (parts : Nat) : State :=
  (tx ws (fun t => { t with gpr := t.gpr.set 11 H1 })).onDie 1 (fun d => { d with acts := [(0, ⟨1, st, 2, L1, parts⟩)] })

theorem witness_ActivitiesBeginJoinAndEnd :
    (∃ u x y, ws.operands (.g 5) .zr (.g 7) = .ok u x y ∧ x.toNat / 2 ^ 8 % 2 ^ 55 = 0 ∧ x.toNat < 2 ^ 63)
    ∧ ((2 : Nat) ^ 63 / 2 ^ 8 % 2 ^ 55 = 0 ∧ (w0.launch w0.th.launch).isNone = true)
    ∧ ((Die.zero.acts.find 0).isNone = true ∧ (((wh .free 0).die 1).acts.find 0).map (fun c => c.gen) = some 1 ∧ freeActSlot ((wh .free 0).die 1) = some 0)
    ∧ freeActSlot (ws.die 1) = some 0 ∧ dieOf ws.here = 1 ∧ ws.Signed (.actb (.g 7) (.g 5)) false
    ∧ freeActSlot { Die.zero with acts := (List.range 256).map (fun k => (k, ⟨1, .opened, 0, 0, 0⟩)) } = none
    ∧ (∃ u x y, (wh .opened 0).operands (.g 11) .zr (.g 7) = .ok u x y ∧ x = H1 ∧ u.flushAll u.cur = u ∧ u.releaseWait .pk = none)
    ∧ (tx ws (fun t => { t with actcur := H1 })).th.actcur ≠ 0
    ∧ ((wh .opened 0).actState H1 = .opened ∧ (wh .opened 0).acteReady H1 = true ∧ (wh .opened 0).th.actcur ≠ H1 ∧ (wh .opened 0).th.actcur = 0)
    ∧ (wh .opened 1).acteReady H1 = false ∧ (wh .committing 0).actState H1 = .committing ∧ (wh .abandoning 0).actState H1 = .abandoning
    ∧ (wh .abandoned 0).actState H1 = .abandoned ∧ (wh .failed 0).actState H1 = .failed ∧ ws.actState H1 = .free
    ∧ (wh .opened 0).Signed (.acte (.g 11)) false ∧ (wh .opened 0).Signed (.actj (.g 11)) false :=
  ⟨⟨_, _, _, rfl, by decide⟩, by decide +kernel, by decide +kernel, by decide +kernel, by decide, by decide +kernel, by decide +kernel,
    ⟨_, _, _, rfl, by decide, by decide, by decide +kernel⟩, by decide +kernel⟩

/-- A record of activity H1, and context 1 in the activity with an address of a routine in g12. -/
def rc (stamp : Word) (valid durable : Bool) : SRec := ⟨0x4000, H1, stamp, [1, 2, 3, 4], 0x200, 1, false, false, false, valid, durable⟩
def wk : State := tx (wh .opened 1) (fun t => { t with actcur := H1, gpr := t.gpr.set 12 0x4000 })

theorem witness_CompensationAndUnwinding :
    (∃ u x y w k, wk.operands (.g 12) (.g 8) .zr = .ok u x y ∧ u.readBlock y 32 = .ok (w, k) ∧ wk.th.actcur ≠ 0 ∧ x.toNat % 4 = 0
      ∧ y.toNat % 32 = 0 ∧ x.toNat < 2 ^ 48 ∧ wk.badAddr wk.cur y = false ∧ wk.th.pendingPush = none ∧ u.me.unack = 0
      ∧ u.actState wk.th.actcur = .opened ∧ freeRecSlot (w.die 1) = some 0)
    ∧ (let s := (tx wk (fun t => { t with pushes := [⟨0x1000, 1, 0, 1⟩] })).onDie 1 (fun d => { d with sepia := [(0, rc 1 true true)] });
      s.th.pendingPush = some ⟨0x1000, 1, 0, 1⟩ ∧ s.pushDurable ⟨0x1000, 1, 0, 1⟩ = true ∧ s.Signed (.cpush (.g 12) (.g 8)) false)
    ∧ (let s := (tx wk (fun t => { t with pushes := [⟨0x1000, 1, 0, 1⟩] })).onDie 1 (fun d => { d with sepia := [(0, rc 1 true false)] });
      s.th.pendingPush = some ⟨0x1000, 1, 0, 1⟩ ∧ s.pushDurable ⟨0x1000, 1, 0, 1⟩ = false)
    ∧ (tx ws (fun t => { t with actcur := H1 })).actState H1 ≠ .opened
    ∧ (let s := (tx ws (fun t => { t with comp := true, routine := some (1, 0) })).onDie 1 (fun d => { d with sepia := [(0, rc 1 true true)] });
      s.th.comp = true ∧ s.drained s.cur = true ∧ s.flushAll s.cur = s ∧ s.releaseWait .pk = none ∧ s.th.sig.en = false
        ∧ s.th.routine = some (1, 0) ∧ s.oldestArrival s.here = none ∧ s.oldestRescued s.here = none ∧ (s.die 1).sepia.find 0 = some (rc 1 true true))
    ∧ (wk.onDie 1 (fun d => { d with sepia := [(0, rc 0 false false)] })).recOf 0x2001 (fun r => r.stamp == 0) = some (0, rc 0 false false)
    ∧ (wk.onDie 1 (fun d => { d with sepia := [(0, rc 1 true false)] })).recOf 0x2001 (fun r => r.stamp != 0 && !r.durable)
      = some (0, rc 1 true false)
    ∧ (let s := (wh .abandoning 0).onDie 1 (fun d => { d with sepia := [(0, rc 1 true true)] });
      (s.dom 2).frozen = none ∧ (s.dom 2).running = none ∧ H1 ∈ s.unwindSet 2 ∧ (s.unwindSet 2).flatMap s.validRecs = [(1, 0, rc 1 true true)])
    ∧ (H1 ∈ (wh .abandoning 0).unwindSet 2 ∧ (wh .abandoning 0).validRecs H1 = [])
    ∧ (let s := (ws.onDie 1 (fun d => { d with posts := [(1, 5), (0, L1)], sepia := [(0, rc 1 true true)] }));
      (s.die 1).posts = [(1, 5)] ++ (0, L1) :: [] ∧ s.postTarget 48 (1, 5) = none ∧ s.launch L1 = some ln
        ∧ (s.target 48 ⟨L1, 0x4000, [1, 2, 3, 4], 0, 3, none, none, none, false, 0, 0, 0⟩).map (fun k => (k, (s.ctx k).run, (s.core (coreOf k)).powered))
          = some (0x2002, .vacant, true))
    ∧ (let s := ((wh .abandoning 0).onDie 1 (fun d => { d with sepia := [(0, rc 1 true true)] })).onDom 2 (fun d => { d with frozen := some (1, 0, 5) });
      (s.sepiaTarget 0x200 0x0000000110010000 = some (H1, 1, 0, rc 1 true true)) ∧ (s.actOf H1).isSome = true)
    ∧ ws.sepiaTarget 0x200 0x10010000 = none :=
  ⟨⟨wk, 0x4000, A, wk, K, rfl, rfl, by decide +kernel⟩, by decide +kernel⟩

theorem witness_SystemRegistersReadAndWrite :
    (∃ u x y, w0.operands .zr .zr (.g 7) = .ok u x y) ∧ (∃ u x y, w1.operands (.g 5) .zr .zr = .ok u x y)
    ∧ ctxOf w0.cur = 0 ∧ sysS 0x020 = false ∧ sysSWrite 0x030 = false ∧ w1.sysWait 0x020 false = none ∧ w1.sysWait 0x030 true = none
    ∧ (w1.onCore 0x200 (fun c => { c with vq := [⟨0x2001, 0, .viota 0 0 .i32 0, 0, 0, 0, 0⟩] })).sysWait 0x008 false = some .vdone
    ∧ w1.Signed (.mfs (.g 7) 0x020) false ∧ w1.Signed (.mts (.g 5) 0x030) false :=
  ⟨⟨_, _, _, rfl⟩, ⟨_, _, _, rfl⟩, by decide +kernel⟩

theorem witness_SettleAndScrub :
    (∃ u x y, (tx w1 (fun t => { t with inTrap := true })).operands (.g 5) .zr .zr = .ok u x y)
    ∧ (let f : Faulted := ⟨0, 1, none, 0, A, .req (rq (.stf 5))⟩;
      let s := cx (tx w1 (fun t => { t with score := [(0, ⟨f, false⟩), (1, ⟨f, true⟩)] })) (fun c => { c with posted := [rq (.stf 5)] });
      (s.ctx 0x2001).th.score.find 0 = some ⟨f, false⟩ ∧ (s.ctx 0x2001).th.score.find 1 = some ⟨f, true⟩ ∧ rq (.stf 5) ∈ (s.ctx 0x2001).posted)
    ∧ (let f : Faulted := ⟨3, 1, some 7, 0, A, .req (rq (.load 8 false))⟩;
      let s := cx (tx w1 (fun t => { t with score := [(0, ⟨f, false⟩)] })) (fun c => { c with awaited := [(7, 0)], lates := [0] });
      (s.ctx 0x2001).awaited.find 7 = some 0 ∧ f.reg = some 7
        ∧ (s.ctx 0x2001).landing.any (fun z => z.seq == f.seq && z.reg == 7 && z.val == .late) = false)
    ∧ w1.th.score.find 0 = none
    ∧ (∃ u x y, w0.operands (.g 8) .zr .zr = .ok u x y ∧ x.toNat % 64 = 0 ∧ x.toNat / 2 ^ 19 % 2 ^ 12 = w0.here
      ∧ x.toNat % 2 ^ 19 + 64 * (4 : BitVec 16).toNat ≤ 2 ^ 19) ∧ w0.Signed (.scrub (.g 8) 4) false :=
  ⟨⟨_, _, _, rfl⟩, by decide +kernel, by decide +kernel, by decide +kernel, ⟨_, _, _, rfl, by decide +kernel⟩, by decide +kernel⟩

/-! ### What the statements assume can be met: the pipe, replies and boundaries -/

/-- Core 0x200 with an executable page at 0, and BSIG words nowhere: every word reads as zero. -/
def wx : State := { w1 with pages := [pg 0 0] }

theorem witness_PipeUnitsDoTheirSteps :
    (let s := cx wx (fun c => { c with fbuf := [(SP * 2 ^ 48 + 0x1000) / 64] });
      (List.range 16).all (fun j => (s.alignNext (0x200 * 16 + j)).isNone) = true ∧ (pickTurn (s.core 0x200).cyc (s.core 0x200).spare (fun k => s.mayTurn 0x200 k && s.mayInject (0x200 * 16 + k))).isSome = true
        ∧ s.fetchWord 0x2001 (s.ctx 0x2001).fetchPc = some 0)
    ∧ ((cx w1 (fun c => { c with retiring := [⟨3, 0x1000, 0, .none, .none, .none, none, 0, .none, none, 0, [(2, (1, 5))], false⟩] })).core 0x200).dbg.stepping
      ≠ some 1
    ∧ (let s := cx w1 (fun c => { c with landing := [⟨3, 7, .ordinary 9, true⟩] });
      (s.ctx 0x2001).landing = [⟨3, 7, .ordinary 9, true⟩]
        ∧ ((List.range 16).all (fun j => j == 1 || (s.ctx (0x200 * 16 + j)).drainOne.isNone)) = true)
    ∧ (cx w1 (fun c => { c with waves := [⟨3, 0x2000⟩] })).me.waves = [⟨3, 0x2000⟩]
    ∧ ((co w1 (fun c => { c with mul := some 3 })).core 0x200).mul = some 3
    ∧ (let s := { cx w1 (fun c => { c with fwant := some 6 }) with
        clusters := [(48, { Cluster.zero with want := [(0x2002, 7), (0x2001, 5)], icache := [5, 7], served := [(0x2001, 6)] })] };
      (0x2001, 5) ∈ (s.cluster 48).want ∧ 5 ∈ (s.cluster 48).icache ∧ (s.cluster 48).served = [(0x2001, 6)] ∧ (s.ctx 0x2001).fwant = some 6
        ∧ (s.cluster 48).want.all (fun e => e == (0x2001, 5)
          || decide ((fetchPlace 48 0x2001 + 128 - (s.cluster 48).next) % 128 < (fetchPlace 48 e.1 + 128 - (s.cluster 48).next) % 128)) = true
        ∧ (s.ctx 0x2001).fbuf.length ≤ 2) := by decide +kernel

/-- The divider of core 0x200 holds one operation of context 1 that is due. -/
def wdv (use : DivUse) (c : Ctx → Ctx) : State :=
  (cx w1 c).onCore 0x200 (fun k => { k with divq := [⟨0x2001, 1, 4, some 7, 9, 20, use⟩], cyc := 20 })

theorem witness_PipeUnits_divider :
    (let s := wdv .late (fun c => { c with lates := [4] });
      (4 : BitVec 8) ∈ (s.ctx 0x2001).lates ∧ (s.core 0x200).divq = [⟨0x2001, 1, 4, some 7, 9, 20, .late⟩] ∧ 20 ≤ (s.core 0x200).cyc
        ∧ coreOf 0x2001 = 0x200 ∧ (s.ctx 0x2001).th.tid = 1 ∧ (s.core 0x200).atoms = [])
    ∧ (let i := Instr.div (.port .east) (.g 5) (.g 6)
      let s := wdv (.push i .east) (fun c => { c with run := .waiting .divided, seq := 5, injected := [⟨4, 0x1000, 0, .none, .none, .none, none, 0, .none, none, 0, [], false⟩] });
      (s.ctx 0x2001).run = .waiting .divided ∧ (s.ctx 0x2001).seqNow = 4 ∧ (s.ctx 0x2001).th.sig.en = false
        ∧ (s.core 0x200).divq.map (fun d => d.use) = [.push i .east])
    ∧ ((wdv .written id).core 0x200).divq.map (fun d => d.use) = [.written]
    ∧ ((co w1 (fun c => { c with divq := [⟨0x2001, 1, 4, some 7, 9, 20, .late⟩] })).core 0x200).cyc < 20 := by decide +kernel

/-- Context 1 with a load to core 0x201 at stage 6, its reply on its way. -/
def rl : Req := ⟨0x2001, 1, 0, some 7, A + 0x80000, K + 0x80000, .load 8 false, 0⟩
def wy : State := nt (cx w1 (fun c => { c with bay := some (.ld (.g 7) (.g 9) .d false .co 0, rl), run := .waiting .reply })) 0x201 0x200 (.reply rl 5 none)

theorem witness_LateValuesWaitsAndBoundaries :
    ((wy.ctx 0x2001).bay = some (.ld (.g 7) (.g 9) .d false .co 0, rl) ∧ rl.cid = 0x2001 ∧ rl.op.leaves = true ∧ rl.op ≠ .claim ∧ rl.reg = some 7
      ∧ (wy.core 0x200).atoms = []
      ∧ ({ wy with cur := 0x2001 }).bkptNow = none ∧ (wy.ctx 0x2001).th.sig.en = false ∧ wy.msgAt 0 = some ⟨0x201, 0x200, .reply rl 5 none⟩
      ∧ wy.bayOf rl = some (.ld (.g 7) (.g 9) .d false .co 0) ∧ landsLast (wy.ctx 0x2001).seqNow 7 (wy.ctx 0x2001).landing = true)
    ∧ (let s := nt (cx w1 (fun c => { c with lates := [0] })) 0x201 0x200 (.reply rl 5 none);
      s.msgAt 0 = some ⟨0x201, 0x200, .reply rl 5 none⟩ ∧ s.bayOf rl = none ∧ s.isLate rl = true ∧ (s.core (coreOf rl.cid)).atoms = [])
    ∧ (let s := (cx w1 (fun c => { c with awaited := [(7, 4)] })).onCore 0x200 (fun c => { c with late := [⟨0x2001, 4, some 7, 9⟩] });
      (s.core 0x200).late = [⟨0x2001, 4, some 7, 9⟩] ∧ (s.ctx 0x2001).awaited.find 7 = some 4)
    ∧ (let s := cx w1 (fun c => { c with run := .waiting (.operand 6) });
      (s.ctx 0x2001).run = .waiting (.operand 6) ∧ (s.ctx 0x2001).bay = none ∧ s.waitOver 0x2001 (.operand 6) = true)
    ∧ Wait.fixed (.operand 6) = false := by decide +kernel

theorem witness_LateValues_wakes :
    (let s := ws.onCtx 0x2001 (fun c => { c with run := .parked (.spawn 1) });
      (s.ctx 0x2001).run = .parked (.spawn 1) ∧ s.waitOver 0x2001 (.spawn 1) = true)
    ∧ ((cx w1 (fun c => { c with run := .parked .watch, ready := true })).ctx 0x2001).ready = true
    ∧ (let s := cx w0 (fun c => { c with run := .parked .sleep, ready := true }); (s.ctx 0x2000).run = .parked .sleep ∧ s.sleepOver 0x2000 = true)
    ∧ (let s := cx w1 (fun c => { c with run := .waiting (.align 9) }); (s.ctx 0x2001).run = .waiting (.align 9) ∧ s.alignMet 0x2001 = true)
    ∧ (let s := (wa .runnable).onCtx 0x2001 (fun c => { c with run := .waiting (.align 9) });
      s.alignMet 0x2001 = false ∧ (s.core 0x200).cyc < (s.ctx 0x2001).parkedAt + 9)
    ∧ (let s := nt (cx w1 (fun c => { c with lates := [0] })) 0x201 0x200 (.fault rl 1 false);
      s.msgAt 0 = some ⟨0x201, 0x200, .fault rl 1 false⟩ ∧ rl.cid < hostCid ∧ s.bayOf rl = none ∧ s.parkedOn rl = false
        ∧ s.faultedOps rl = [rl] ∧ (s.ctx 0x2001).th.inTrap = false) := by decide +kernel

theorem witness_LateValues_boundaries :
    (let s := cx (tx w1 (fun t => { t with tvec := 0x800 })) (fun c => { c with faults := [faultedOf rl 1] });
      s.atBoundary 0x2001 = true ∧ (s.ctx 0x2001).faults = [faultedOf rl 1] ∧ (s.ctx 0x2001).th.inTrap = false ∧ (s.ctx 0x2001).th.tvec ≠ 0
        ∧ bit (s.core 0x200).deleg (faultedOf rl 1).cause.code.toNat = false)
    ∧ (let s := cx w1 (fun c => { c with replies := [(.barrierOverrun, 5)], asyncs := [(0, 5)], preempt := true });
      s.atBoundary 0x2001 = true ∧ (s.ctx 0x2001).lateDue = false ∧ (s.ctx 0x2001).replies = [(.barrierOverrun, 5)])
    ∧ (let s := cx w1 (fun c => { c with replies := [(.barrierOverrun, 5)], run := .parked .watch });
      s.atBoundary 0x2001 = true ∧ (s.ctx 0x2001).lateDue = false ∧ (s.ctx 0x2001).run = .parked .watch)
    ∧ (let s := cx w1 (fun c => { c with asyncs := [(0, 5)], preempt := true, run := .waiting (.operand 5), awaited := [(5, 3)] });
      s.atBoundary 0x2001 = true ∧ s.idlePacket 0x2001 = true ∧ (s.ctx 0x2001).lateDue = false ∧ (s.ctx 0x2001).replies = []
        ∧ (s.ctx 0x2001).asyncDue 0x2001 = true ∧ (s.ctx 0x2001).asyncs = [(0, 5)])
    ∧ (let s := cx w1 (fun c => { c with preempt := true, run := .waiting (.operand 5), awaited := [(5, 3)] });
      s.atBoundary 0x2001 = true ∧ s.idlePacket 0x2001 = true ∧ (s.ctx 0x2001).lateDue = false ∧ (s.ctx 0x2001).asyncDue 0x2001 = false
        ∧ (s.ctx 0x2001).preempt = true ∧ s.mayHold 0x2001 = true)
    ∧ (let s := (tx w0 (fun t => { t with tvec := 0x800 })).onCore 0x200 (fun c => { c with delegq := [⟨some 3, .trap, .precise, 0, 7⟩] });
      s.mayPresent 0x200 = true ∧ (s.core 0x200).delegq = [⟨some 3, .trap, .precise, 0, 7⟩])
    ∧ ((cx w0 (fun c => { c with run := .parked (.restart 5) })).ctx (0x200 * 16)).run = .parked (.restart 5) := by decide +kernel

/-! ### What the statements assume can be met: messages, launches and threads -/

theorem witness_MessagesAndAnswersArrive :
    (nt w1 0x201 0x200 (.refuse rl)).msgAt 0 = some ⟨0x201, 0x200, .refuse rl⟩
    ∧ (let s := w1.onCore 0x200 (fun c => { c with resends := [(rl, ⟨0x201, 0, false, false⟩)] });
      (s.ctx rl.cid).th.tid = rl.tid ∧ (s.core (coreOf rl.cid)).resends = [(rl, ⟨0x201, 0, false, false⟩)] ∧ (s.ctx rl.cid).th.feretry.toNat < rl.tries + 1)
    ∧ ((w1.onCore 0x200 (fun c => { c with resends := [(rl, ⟨0x201, 32, false, true⟩)] })).core 0x200).resends = [(rl, ⟨0x201, 32, false, true⟩)]
    ∧ (let e : Wcb := ⟨0x2001, 0x210, 0x2000, [(0, 7)], 1, rq (.store [(0, 7)] 1)⟩;
      ((w1.onCore 0x200 (fun c => { c with wcb := [e] })).core 0x200).wcb = [e] ∧ coreOf e.cid = 0x200)
    ∧ (let s := nt (cx w1 (fun c => { c with posted := [rq (.stf 5)] })) 0x200 0x200 (.ack (rq (.stf 5)) 1 none);
      s.msgAt 0 = some ⟨0x200, 0x200, .ack (rq (.stf 5)) 1 none⟩ ∧ (rq (.stf 5)).cid < hostCid ∧ s.asker (rq (.stf 5)) = true
        ∧ (s.core 0x200).atoms = [] ∧ rq (.stf 5) ∈ (s.ctx 0x2001).posted)
    ∧ (let s := nt we 0x201 0x200 (.orphan K 5); s.msgAt 0 = some ⟨0x201, 0x200, .orphan K 5⟩ ∧ (s.core 0x200).reserved.find K = some ⟨false, some 5⟩
      ∧ (s.core 0x200).waits = [])
    ∧ (nt we 0x201 0x200 (.orphan K 6)).msgAt 0 = some ⟨0x201, 0x200, .orphan K 6⟩ ∧ (⟨false, some 5⟩ : Held).holder ≠ some 6
    ∧ (let l := globalBase + 0x2000;
      (let s := nt w1 0x210 0x200 (.inval l 0x210 0x200 false);
        s.msgAt 0 = some ⟨0x210, 0x200, .inval l 0x210 0x200 false⟩ ∧ isReplica 0x200 = false ∧ (s.core 0x210).helds = [] ∧ s.agentReqs = []
          ∧ (s.core 0x210).atoms = [])
      ∧ (let s := (w1.onCore (replicaCore 1 l) (fun c => { c with reps := [(l, ⟨[], [7]⟩)] })).onCore 0x210 (fun c =>
          { c with dir := [(l, ⟨[replicaCode 1], false, false, 0, 0, []⟩)] });
        (s.replica 1 l).isSome = true ∧ s.cores.any (fun e => (dirOf e.2 l).sharers.contains (replicaCode 1)) = true)
      ∧ (let s := nt (w1.onCore 0x210 (fun c => { c with dir := [(l, ⟨[replicaCode 1], false, false, 0, 0, []⟩)] })) 0x200 0x210 (.drop l 1);
        s.msgAt 0 = some ⟨0x200, 0x210, .drop l 1⟩ ∧ s.replica 1 l = none ∧ (s.core 0x210).dir.find l = some ⟨[replicaCode 1], false, false, 0, 0, []⟩
          ∧ (s.core 0x210).helds = [] ∧ s.agentReqs = [])
      ∧ (let s := { nt w1 0x210 0xFFE (.backInval l) with hostLines := [l] };
        s.msgAt 0 = some ⟨0x210, 0xFFE, .backInval l⟩ ∧ (s.core 0x210).helds = [] ∧ s.agentReqs = [])) := by decide +kernel

theorem witness_Messages_reach :
    (nt w1 0x201 0x200 (.wake 0x2001)).msgAt 0 = some ⟨0x201, 0x200, .wake 0x2001⟩
    ∧ (let s := w1.onCtx 0x2001 (fun c => { c with polled := [(K, 5)] }); (s.ctx (0x200 * 16 + 1)).polled = [(K, 5)] ∧ s.peek K ≠ 5)
    ∧ ((wri.core 0x200).ib.length < 64 ∧ wri.ringPending 0x200 (fun _ => true) = [0] ∧ (wri.takeRing 0x200 0).isSome = true)
    ∧ (nt w1 0x201 0x200 (.port 0x2001 .east 9)).msgAt 0 = some ⟨0x201, 0x200, .port 0x2001 .east 9⟩
    ∧ (let s := nt w1 0x201 0x200 (.send (rq' .msg) 1 L1 ⟨1, 2⟩);
      s.severed 0x201 0x200 = false ∧ (rq' .msg).cid < hostCid ∧ (s.core 0x200).ringUsed = 0 ∧ (s.core 0x200).ib.length < 64)
    ∧ (w1.onCore 0x200 (fun c => { c with ib := (List.range 64).map (fun _ => ⟨1, ⟨0, 0⟩⟩) })).ibAccept 0x200 ⟨1, ⟨1, 2⟩⟩ = none ∧ (rq' .msg).cid < hostCid
    ∧ ((w1.onCore 0x200 (fun c => { c with msgResends := [⟨rq .msg, 0x201, 1, L1, ⟨1, 2⟩, none, 0⟩] })).core 0x200).msgResends
      = [⟨rq .msg, 0x201, 1, L1, ⟨1, 2⟩, none, 0⟩]
    ∧ (let s := w1.onCore 0x200 (fun c => { c with inoff := 0x40, insize := 0x20, ringW := 24, ringO := 24, ringUsed := 24 });
      s.core 0x200 ≠ w1.core 0x200 ∧ w1.ringEmpty 0x200 = true ∧ wri.ringEmpty 0x200 = false)
    ∧ (let s := nt wt 0x201 0x200 (.timed (rq' .msg) 0 ⟨20, 0x201, 0, ⟨1, 2⟩⟩);
      s.severed 0x201 0x200 = false ∧ (s.core 0x200).lt = some lt1 ∧ lt1.launch = 0 ∧ lt1.timeEnded = false ∧ lt1.lane.length < 256) := by
  decide +kernel

/-- A block without dies, which is refused; and one over die 1 that becomes launch 5 of the whole package. -/
def b1 : Block := ⟨0x2000, ⟨0xFF, SP, []⟩, (((List.replicate 256 0).set 12 0xFF).set 13 2).set 156 5⟩
def b0 : Block := ⟨0x2000, ⟨0xFF, SP, [⟨0x2000, 0x1000, 0x1000, 2, false, false⟩]⟩, List.replicate 256 0⟩

theorem witness_LaunchesRunAndEnd :
    (let s := w1.setPart 0xFF ⟨[b0], 0, []⟩; (s.part 0xFF).submitted = [b0] ∧ (s.setPart 0xFF { s.part 0xFF with submitted := [] }).blockStatus b0 ≠ 0)
    ∧ (let s := { w1 with pages := [pg 0 0] };
      s.MemOk ∧ s.agentKey b0.view (b0.addr + 0xC0) true = some (globalBase + 0x20C0) ∧ padKey (globalBase + 0x20C0) = false
        ∧ s.agentFree agentCid (globalBase + 0x20C0) 8 = true ∧ b0.addr.toNat % 256 = 0)
    ∧ (let s := { w1.setPart 0xFF ⟨[b1], 0, []⟩ with ready := 0x20000 }; (s.setPart 0xFF { s.part 0xFF with submitted := [] }).blockStatus b1 = 0)
    ∧ (let s := { ws with launches := [{ ln with gen := 0 }] };
      s.launch L1 = some { ln with gen := 0 } ∧ 0 < ({ ln with gen := 0 }).total ∧ s.spawnOpen (({ ln with gen := 0 }).task 0).1 L1 = true)
    ∧ (let s := ws.onDie 1 (fun d => { d with queue := [tk] });
      s.nextPost 48 = none ∧ (dispenseOrder (s.die 1).queue).find? (fun t => (s.target 48 t).isSome) = some tk ∧ s.target 48 tk = some 0x2002
        ∧ s.launch tk.launch = some ln ∧ (s.ctx 0x2002).run = .vacant ∧ (s.core 0x200).powered = true ∧ s.noneBindable 1 = false)
    ∧ ((ws.die 1).stealOut = false ∧ (ws.die 1).stealWait = false ∧ ws.victims 1 ≠ [] ∧ ws.someOffered 1 = true ∧ ws.noneBindable 1 = true)
    ∧ (nt ws 0x1000 0x1001 (.steal 0 7)).msgAt 0 = some ⟨0x1000, 0x1001, .steal 0 7⟩
    ∧ (nt ws 0x1000 0x1001 (.stolen 1 [])).msgAt 0 = some ⟨0x1000, 0x1001, .stolen 1 []⟩
    ∧ (nt ws 0x200 0x1001 (.spawn tk)).msgAt 0 = some ⟨0x200, 0x1001, .spawn tk⟩ := by decide +kernel

theorem witness_LaunchesRunAndEnd_ends :
    ws.launches.filter (fun l => l.part == 0xFF && !l.ended) = [ln] ∧ ws.quiet ln = false
    ∧ (let l := { ln with tasks := 0 };
      let s := { State.reset with launches := [l] };
      s.quiet l = true ∧ s.sumSent l = s.sumRecv l ∧ l.lastSent = s.sumSent l ∧ l.lastRecv = s.sumRecv l)
    ∧ (let l : Launch := { ln with ended := true, final := some ⟨1, 5, 0, [1]⟩ };
      let s := { w1 with pages := [pg 0 0], launches := [l], now := 5000 };
      s.launches.filter (fun l => l.final.isSome) = [l] ∧ (s.die 1).intervals < s.now.toNat / 1000 ∧ s.MemOk
        ∧ s.agentKey l.blockView (l.block + 0xC0) true = some (globalBase + 0x20C0) ∧ padKey (globalBase + 0x20C0) = false
        ∧ l.block.toNat % 256 = 0 ∧ s.agentFree agentCid (globalBase + 0x20C0) 8 = true)
    ∧ (w1.cluster (clusterOf 0x200)).stopped = false
    ∧ ((w1.setCluster 48 { w1.cluster 48 with stopped := true }).cluster (clusterOf 0x200)).stopped = true := by decide +kernel

/-- A thread that has arrived and waits for a context; and a die whose spill area is full. -/
def parked1 : Parked := ⟨th1, .arrival, 1, 0, [], [], []⟩

theorem full_spill (s : State) (n : Nat) : n ≤ ((s.onDie 1 (fun d => { d with spill := List.replicate n (Spill.of 0x201 parked1) })).die 1).spill.length := by
  simp

theorem witness_full_spill : 32768 ≤ ((w1.onDie 1 (fun d => { d with spill := List.replicate 32768 (Spill.of 0x201 parked1) })).die 1).spill.length :=
  full_spill w1 32768

theorem witness_ThreadsComeAndGo :
    (let s := (w1.onCore 0x200 (fun c => { c with powering := true, powered := false })).onCtx 0x2005 (fun c => { c with reserved := some th1 });
      (s.core 0x200).powering = true ∧ (s.ctx 0x2005).reserved = some th1)
    ∧ (State.reset.onCore 0x200 (fun c => { c with powered := true, spare := 3 })).mayPowerDown 0x200 = true
    ∧ (let s := cx w1 (fun c => { c with run := .waiting .suspend });
      (s.ctx 0x2001).run = .waiting .suspend ∧ (s.ctx 0x2001).unack = 0 ∧ (s.ctx 0x2001).outld = 0 ∧ (s.ctx 0x2001).lateDue = false ∧ s.lateComing 0x2001 = false ∧ (s.ctx 0x2001).waves = [] ∧ (s.core 0x200).cacheUsed < 32
        ∧ s.oldestArrival 0x200 = none ∧ s.oldestRescued 0x200 = none)
    ∧ (let s := cx wn (fun c => { c with run := .waiting (.depart 0x201 3 false false) });
      let s := { s with pages := [pg 0 0], mem := [(globalBase + 0x1001, 0x38), (globalBase + 0x1002, 0xA6), (globalBase + 0x1003, 4)] };
      s.mayDepart 0x2001 = true ∧ s.fetchWord 0x2001 0x1000 = some (0x04A63800 : Word32) ∧ (decode 0x04A63800).toOption = some (.add (.g 5) (.g 6) (.g 7))
        ∧ (s.ctx 0x2001).th.engineLive = false) := by decide +kernel

theorem witness_ThreadsComeAndGo_holds :
    (let s := wfull.onCtx 0x2001 (fun c => { c with run := .parked (.spawn 1) });
      s.parkOrder.find? (fun c => s.rescuable 1 c) = some 0x2001 ∧ (s.core 0x200).cacheUsed < 32)
    ∧ (let p : Parked := ⟨th1, .arrival, 0x2011, 0, [], [], []⟩;
      let s := nt w1 0x201 0x200 (.migrate p);
      s.severed 0x201 0x200 = false ∧ s.oldestArrival 0x200 = none ∧ s.vacantCtx 0x200 = some 0x2002 ∧ (s.core 0x200).powered = true
        ∧ p.origin < 65536 ∧ p.why = .arrival ∧ p.th.engineLive = false)
    ∧ (let s := { w1 with ctxs := (List.range 16).map (fun k => (0x2000 + k, { Ctx.zero with run := .runnable })) };
      s.vacantCtx 0x200 = none ∧ s.spilled 0x200 = [] ∧ (s.core 0x200).cache = [] ∧ (s.core 0x200).arrivals.length < 8
        ∧ (let s := s.onCore 0x200 (fun c => { c with arrivals := List.replicate 8 parked1 });
          s.vacantCtx 0x200 = none ∧ (s.core 0x200).arrivals.length = 8 ∧ (s.core 0x200).cacheUsed < 32)
        ∧ (let s := s.onCore 0x200 (fun c => { c with arrivals := List.replicate 8 parked1, cache := List.replicate 32 parked1 });
          s.vacantCtx 0x200 = none ∧ (s.core 0x200).arrivals.length = 8 ∧ 32 ≤ (s.core 0x200).cacheUsed))
    ∧ (let s := w1.onCore 0x200 (fun c => { c with cache := [⟨th1, .resend 0x201 9, 1, 0, [], [], []⟩, parked1] });
      (s.core 0x200).cache.find? (fun p => p.why == .arrival) = some parked1 ∧ (s.core 0x200).arrivals.length < 8
        ∧ ((s.core 0x200).cache.map (fun p => p.why)).head? = some (.resend 0x201 9))
    ∧ ((w1.ctx 0x2001).holdsThread = true ∧ (w1.ctx 0x2001).th.routine = none ∧ ((w1.core 0x200).delegq.filter (fun d => d.src == none)).length < 16) := by
  decide +kernel

/-! ### What the statements assume can be met: the copy and matrix sidings -/

/-- Context 1 owns the accumulator banks; INT8, one plane at K; g11 is an MMA over rows 0, g12 a tile address. -/
def mx : State :=
  (tx ws (fun t => { t with ebudget := 100, mat := ⟨1, false, false, 0, [(1, false, A, 0)], none, true⟩, gpr := (t.gpr.set 11 0x100000).set 12 0 })).onCore 0x200
    (fun c => { c with accown := 0x1111, ecost := 0x0001000100010001 })

/-- An MMA over the row at K with a plane at K + 0x1000, of context 1, and the core that runs it. -/
def mm : MCmd := ⟨0x2001, 0, 0, 2, 0, A, 1, false, false, [(A + 0x1000, 0)], 0, 0, 0, 0, 0, 0, 0⟩
def mrun (c : MCmd) (l f : Bool) : State := w1.onCore 0x200 (fun x => { x with running := some ⟨c, l, f⟩ })

theorem padsound (s : State) (c : MCmd) (l f : Bool) (h : s = mrun c l f) : s.PadSound 0x200 := by
  subst h
  exact ⟨by decide, rfl, rfl, rfl, rfl, rfl, rfl, rfl, rfl⟩

theorem witness_MatrixInstructions :
    (hasX 1 = false ∧ hasX 0x200 = true ∧ ((one 0x11 th1).xTarget 1).isSome = true ∧ (one 0x11 th1).mayDepart 0x11 = true
      ∧ ({ one 0x11 th1 with offDies := [1, 3, 4, 6] }).xTarget 1 = none)
    ∧ (∃ u x y, mx.operands (.g 6) .zr .zr = .ok u x y ∧ x.toNat < 16 ∧ x.toNat % 4 = 3)
    ∧ (∃ u x y, mx.operands .zr .zr .zr = .ok u x y ∧ x.toNat < 2 ∧ u.cur = mx.cur ∧ x.toNat / 4 = 0 ∧ x.toNat % 4 ≠ 3)
    ∧ (mx.unbudgeted mx.cur = false ∧ (mx.core mx.here).ecost.toNat / 2 ^ 16 % 2 ^ 16 ≤ mx.th.ebudget.toNat
      ∧ mx.Signed (.mcfg .zr 1) false ∧ mx.Signed (.mpri 1 2) false ∧ mx.Signed (.mcan .zr 1) false ∧ mx.Signed (.mwl (.g 8) .zr 1) false)
    ∧ (∃ u x y, mx.operands (.g 8) .zr .zr = .ok u x y ∧ x.toNat % 64 = 0 ∧ padBytes mx.here x 4096 ∧ mx.th.mat.planes.length < 16 ∧ y = 0)
    ∧ (∃ u x y, mx.operands (.g 11) (.g 8) .zr = .ok u x y ∧ mx.mxCheck 2 x y = none ∧ mx.mxCheck 3 0 y = none ∧ y.toNat % 16 = 0)
    ∧ (mx.Signed (.mma (.g 11) (.g 8) 1) false ∧ ((mx.core mx.here).mat.filter (fun c => c.prio == 0)).length < 8 ∧ (mx.core mx.here).staged = [])
    ∧ ((List.replicate 8 mm).filter (fun c => c.prio == 0)).length = 8
    ∧ (let s := tx mx (fun t => { t with gpr := t.gpr.set 11 0x2000000000100000 });
      s.th.mat.slot = none ∧ s.mxCheck 2 (BitVec.ofNat 64 ((s.plain (.g 11)).toNat % 2 ^ 60)) A = none ∧ s.Signed (.mstage (.g 11) (.g 8) 1) false)
    ∧ ((mx.core mx.here).accown.toNat / 16 ^ 0 % 16 = ctxOf mx.cur ∧ mx.Signed (.mclr .zr 1) false) :=
  ⟨by decide +kernel, ⟨_, _, _, rfl, by decide +kernel⟩, ⟨_, _, _, rfl, by decide +kernel⟩, by decide +kernel,
    ⟨_, _, _, rfl, by decide +kernel⟩, ⟨_, _, _, rfl, by decide +kernel⟩, by decide +kernel⟩

/-- A descriptor of one byte at an address. -/
def d0 (x : Word) : Desc := ⟨x, 0, 0, [], [], none, 0, none⟩
def cp (flag : Word) (flagOnly : Bool) : CopyCmd :=
  ⟨0x2001, 0, d0 A, d0 (A + 0x40), 0, flag, 9, none, 0, [], 0, 0, flagOnly, SP, 0, [], [], [], [], [], none⟩
def wcp (c : CopyCmd) : State := w1.onCore 0x200 (fun x => { x with copies := [c] })
def wd : State := tx mx (fun t => { t with descs := [(0, d0 A), (1, d0 (A + 0x40))], gpr := (t.gpr.set 13 (2 ^ 63 + 7)).set 11 (2 ^ 63 + 0x02000200) })

theorem padsound_wcp (c : CopyCmd) : (wcp c).PadSound 0x200 := ⟨by decide, rfl, rfl, rfl, rfl, rfl, rfl, rfl, rfl⟩

theorem witness_CopyInstructions :
    (∃ u x y, wd.operands (.g 8) .zr .zr = .ok u x y ∧ u.cur = wd.cur ∧ wd.copyCheck 0 0 1 0 false = none ∧ x.toNat % 8 = 0)
    ∧ (∃ u x y, wd.operands (.g 5) (.g 13) .zr = .ok u x y ∧ 2 ^ 63 ≤ y.toNat ∧ y.toNat < 2 ^ 63 + 2 ^ 17 ∧ 0 < x.toNat ∧ x.toNat < 2 ^ 32)
    ∧ wd.th.descs.find 0 = some (d0 A) ∧ wd.th.descs.find 1 = some (d0 (A + 0x40)) ∧ wd.th.descs.find 2 = none
    ∧ ((wd.core wd.here).copies.filter (fun c => c.status == 0)).length < 8 ∧ wd.th.cq.length + wd.outcp wd.cur < 8
    ∧ ((List.replicate 8 (cp 0 false)).filter (fun c => c.status == 0)).length = 8
    ∧ (isCore 0x200 = true ∧ wd.partOf (dieOf 0x200) = wd.partOf (dieOf wd.here) ∧ (wd.plain (.g 11)).toNat = 2 ^ 63 + 0x200 * 2 ^ 16 + 0x200)
    ∧ (tx wd (fun t => { t with mat := { t.mat with slot := some mm } })).copyCheck 0 0 1 0 true = none
    ∧ wd.Signed (.cgo .zr .zr 1 0 1 0) false ∧ wd.Signed (.csetb (.g 8) .zr 1 0 0) false ∧ wd.Signed (.ccan 1) false :=
  ⟨⟨_, _, _, rfl, by decide +kernel, by decide +kernel, by decide +kernel⟩, ⟨_, _, _, rfl, by decide +kernel⟩, by decide +kernel⟩

theorem witness_CopiesArePerformed :
    (wcp (cp 0 false)).copyAt 0x200 0 = some (cp 0 false) ∧ (wcp (cp 0 false)).PadSound 0x200 ∧ (wcp (cp 0 false)).MemOk
    ∧ ((wcp (cp 0 false)).cluster (clusterOf 0x200)).stopped = false ∧ (cp 0 false).closing = none
    ∧ ((cp 0 false).first < (cp 0 false).dst.count ∧ (cp 0 false).len (cp 0 false).first = 1 ∧ (cp 0 false).dst.bytes = (cp 0 false).src.bytes
      ∧ padBytes 0x200 ((cp 0 false).src.addr 0) 1 ∧ padBytes 0x200 ((cp 0 false).dst.addr 0) 1)
    ∧ ((wcp (cp A true)).copyAt 0x200 0 = some (cp A true) ∧ padBytes 0x200 A 8 ∧ A.toNat % 8 = 0 ∧ (cp A true).staged = none ∧ ((wcp (cp A true)).ctx 0x2001).th.saved = false
      ∧ ((wcp (cp A true)).core 0x200).copies.all (fun d => d.status == 0) = true)
    ∧ (let c : CopyCmd := { cp 0 false with src := { d0 (A + 1) with fmt := 6 } };
      (wcp c).copyAt 0x200 0 = some c ∧ c.staged = none ∧ c.flagOnly = false ∧ c.src.dev = 0 ∧ c.first < c.dst.count ∧ (c.src.addr c.first).toNat % c.src.bytes ≠ 0
        ∧ ((wcp c).ctx 0x2001).th.inTrap = false ∧ c.flits = [] ∧ ({ c with flits := [(1, 3, 5)] } : CopyCmd).flits ≠ [])
    ∧ (let s := ({ wg with ports := [(3, { PeerPort.zero with up := true })] });
      (s.peer 3).up = true ∧ (0x2010 : Word).toNat < 2 ^ 63 ∧ s.pieceKey 3 0x2010 = some (globalBase + 0x2010)
        ∧ padKey (globalBase + 0x2010) = false ∧ s.agentFree agentCid (globalBase + 0x2010) 1 = true ∧ s.MemOk ∧ (s.peer 4).up = false) :=
  ⟨by decide +kernel, padsound_wcp _, by decide +kernel⟩

/-- Copies of one element with block scales, to the cores 0x200 and 0x201, from FP32 to BF16, and of a BF16 added to an FP32. -/
def cpScaled : CopyCmd := { cp 0 false with src := { d0 A with sbase := some (A + 0x80) }, dst := { d0 (A + 0x40) with sbase := some (A + 0xC0) } }
def cpMany : CopyCmd := { cp 0 false with dst := { d0 (A + 0x40) with mcast := some (0x200, 0x201) } }
def cpConv : CopyCmd := { cp 0 false with op := 1, src := { d0 A with fmt := 2 }, dst := { d0 (A + 0x40) with fmt := 1 } }
def cpAdd : CopyCmd := { cp 0 false with op := 2, src := { d0 A with fmt := 1 }, dst := { d0 (A + 0x40) with fmt := 2 } }
def wca : State := { wcp cpAdd with mem := memOf [(K, 2, 0x3F80), (K + 0x40, 4, 0x3F800000)] }

theorem witness_Copies_kinds :
    (let c := cpScaled;
      c.src.sbase.isSome = true ∧ c.dst.sbase.isSome = true ∧ c.first % 32 = 0 ∧ padBytes 0x200 (c.src.scale c.first) 1 ∧ padBytes 0x200 (c.dst.scale c.first) 1
        ∧ (c.dst.addr c.first).toNat + c.dst.bytes ≤ (c.dst.scale c.first).toNat)
    ∧ (cpMany.toWrite cpMany.first = some 0x200 :: [some 0x201] ∧ cpMany.dst.base.toNat / 2 ^ 19 = (cpMany.dst.addr cpMany.first).toNat / 2 ^ 19)
    ∧ (cpConv.src.bytes = 4 ∧ cpConv.dst.bytes = 2 ∧ copyFmt cpConv.src.fmt = some fp32 ∧ copyFmt cpConv.dst.fmt = some bf16
      ∧ fpNum fp32 0xBFC00000 = some (-3 / 2) ∧ 0xBFC0 < 2 ^ bf16.width ∧ fpNum bf16 0xBFC0 = some (-3 / 2) ∧ dm8Num 0x30 0 = some 10)
    ∧ (cpAdd.grants = [] ∧ cpAdd.words = [] ∧ wca.full 0x200 (K + 0x40) = true
      ∧ wca.asked 0x200 (cpAdd.reserve cpAdd.first (BitVec.ofNat 64 (K + 0x40))) = false
      ∧ fpNum bf16 (wca.mem.nat K 2) = some 1 ∧ fpNum fp32 (wca.mem.nat (K + 0x40) 4) = some 1 ∧ fpNum fp32 0x40000000 = some 2) := by
  decide +kernel

theorem witness_Copies_sound : (wcp cpMany).PadSound 0x200 ∧ wca.PadWord 0x200 (K + 0x40) :=
  ⟨padsound_wcp _, ⟨by decide, by decide, by decide, by decide, rfl, rfl, rfl, rfl, fun _ h => by cases h⟩⟩

theorem witness_MatrixCommandsArePerformed :
    ((w1.onCore 0x200 (fun x => { x with staged := [mm] })).core 0x200).staged = [mm]
    ∧ (w1.onCore 0x200 (fun x => { x with mat := [mm] })).mxReady 0x200 = [mm]
    ∧ ((mrun mm true false).core 0x200).running = some ⟨mm, true, false⟩ ∧ (mrun mm true false).PadSound 0x200
    ∧ (mm.spans mm.k).all (fun p => decide (padBytes 0x200 p.1 p.2)) = true ∧ mm.fmt = 1 ∧ mm.a.toNat / 2 ^ 14 % 2 ^ 4 + 1 ≤ mm.k + 1
    ∧ ((w1.cluster (clusterOf 0x200)).stopped = false ∧ ((w1.setCluster 48 { w1.cluster 48 with stopped := true }).cluster (clusterOf 0x200)).stopped = true)
    ∧ (let b : MCmd := { mm with fmt := 2 };
      (b.spans b.k).all (fun p => decide (padBytes 0x200 p.1 p.2)) = true ∧ fpNum bf16 0xC040 = some (-3) ∧ dm8Num 0x40 0 = some 1 ∧ fpNum fp32 0 = some 0
        ∧ 5 + ((List.range 64).map (fun (k : Nat) => (-3 * (k : Int)).natAbs)).sum ≤ 2 ^ 24)
    ∧ (mrun { mm with code := 4 } false false).PadSound 0x200 ∧ (mrun { mm with code := 3 } false false).MemOk
    ∧ (((mrun { mm with code := 3 } false false).ctx 0x2001).th.mq.length < 8 ∧ padBytes 0x200 mm.b 256 ∧ mm.b.toNat % 16 = 0)
    ∧ (let s := (mrun { mm with code := 3 } false false).onCore 0x200 (fun c => { c with powered := false });
      (s.core 0x200).badAcc = [] ∧ (s.core 0x200).powered = false ∧ (s.ctx 0x2001).th.inTrap = false ∧ mm.a.getLsbD 14 = false)
    ∧ (let o : Thread := { th1 with mxthr := 5, mxsat := 3 }; o.mxthr.toNat % 2 ^ 16 ≠ 0 ∧ o.mxsat.toNat < o.mxthr.toNat % 2 ^ 16
      ∧ o.mxthr.toNat % 2 ^ 16 ≤ o.mxsat.toNat + 2) :=
  ⟨by decide +kernel, by decide +kernel, by decide +kernel, padsound _ _ _ _ rfl, by decide +kernel, rfl, and_assoc.1 (and_assoc.1 ⟨by decide +kernel,
    padsound _ _ _ _ rfl, by decide +kernel⟩)⟩

/-! ### What the statements assume can be met: the package, the host, debug and the vector siding -/

/-- A header with sequence 0, a kind, and an acknowledged sequence. -/
def flit (kind : BitVec 3) (ack : Nat) : BitVec 32 := BitVec.ofNat 32 (ack % 2 ^ 12 * 2 ^ 16 + kind.toNat * 2 ^ 13)

/-- Headers that ask for a replay and that do not, whatever the kind of a request for one is. -/
theorem witness_Links_kinds (k : BitVec 3) :
    (flit k 0xFFF).toNat % 2 ^ 12 = 0 ∧ (flit k 0xFFF).toNat / 2 ^ 13 % 2 ^ 3 = k.toNat ∧ (flit (k + 1) 0).toNat / 2 ^ 13 % 2 ^ 3 ≠ k.toNat := by
  revert k; decide

theorem witness_LinksClocksPowerAndEnergy :
    (let s := { w1 with ports := [(3, { PeerPort.zero with up := true, txSeq := 1, replay := [⟨0, false, 0⟩] })] };
      (s.peer 3).up = true ∧ (s.peer 3).rolling = false ∧ (s.peer 3).marker = none ∧ (s.peer 3).rxSeq = 0
        ∧ (ackFlits (s.peer 3).replay 0xFFF).map (fun f => f.times) = [0] ∧ (s.peer 3).replay.any (fun f => f.epoch == (s.peer 3).epoch) = true)
    ∧ (ackFlits [⟨0, false, 15⟩] 0xFFF).map (fun f => f.times) = [15]
    ∧ (let s := { w1 with ports := [(3, { PeerPort.zero with
          up := true, txSeq := 8, rolling := true, marker := some 7, replay := [⟨7, false, 0⟩], rollWanted := true })] };
      (s.peer 3).up = true ∧ (s.peer 3).marker = some 7 ∧ (s.peer 3).replay = [⟨7, (s.peer 3).epoch, 0⟩] ∧ (s.peer 3).rollWanted = true
        ∧ (flit 0 7).toNat % 2 ^ 12 = (s.peer 3).rxSeq.toNat ∧ (flit 0 7).toNat / 2 ^ 16 % 2 ^ 12 = (7 : BitVec 12).toNat
        ∧ (flit 0 6).toNat / 2 ^ 16 % 2 ^ 12 ≠ (7 : BitVec 12).toNat)
    ∧ (w1.beat = none ∧ ({ w1 with beat := some 4096 }).beat = some 4096)
    ∧ ((w1.die 1).intervals < ({ w1 with now := 1000 }).now.toNat / 1000 ∧ w1.now.toNat / 1000 ≤ (w1.die 1).intervals)
    ∧ (∀ c ∈ coresOfCluster 48, (w1.core c).gangDue = false)
    ∧ (w1.cluster 3).ns.toNat ≤ w1.now.toNat
    ∧ ((ws.core 0x200).ehold = false ∧ (ws.ctx 0x2001).holdsThread = true ∧ (ws.ctx 0x2001).run ≠ .suspended
      ∧ ws.launch (ws.ctx 0x2001).th.launch = some ln ∧ ln.ebudget ≠ 0) := by decide +kernel

/-- The supervisor thread of hub W waits for a launch word. -/
def wh0 : State := wg.onCtx (0xFFE * 16) (fun c => { c with run := .parked .watch, th := { th1 with tid := 9 } })

theorem witness_RegisterHalvesAndWindows :
    w1.outv 0x2001 = 0 ∧ (w1.onCore 0x200 (fun c => { c with vq := [⟨0x2001, 0, .viota 0 0 .i32 0, 0, 0, 0, 0⟩] })).outv 0x2001 ≠ 0
    ∧ (w1.core 0x200).trace = [] ∧ (w1.core 0x200).traceNet = [] ∧ (w1.core 0x200).ovfq = [] ∧ (w1.core 0x200).powered = true
    ∧ (groupOf (w1.core 0x200) 1).st = .normal ∧ (groupOf (w1.core 0x200) 1).queue = []
    ∧ (let c := { w1.core 0x200 with groups := [(0, ⟨.normal, 0, [(5, 1, false)], true, [], []⟩), (1, ⟨.degraded, 2, [], false, [], []⟩),
        (2, ⟨.lost, 0, [], false, [], []⟩)] };
      (groupOf c 0).queue = [(5, 1, false)] ∧ (groupOf c 0).draining = true ∧ (groupOf c 1).st = .degraded ∧ (groupOf c 2).st = .lost)
    ∧ ((w1.onCore 0x200 (fun c => { c with scrubs := [(3, 2)], ovfq := [(0x2000, true, 1)] })).core 0x200).scrubs = [(3, 2)]
    ∧ (let l := globalBase + 0x2000;
      let r : Req := ⟨0x2011, 5, 0, none, 0x2000, vkey SP (0x2000 : Word), .store [(0, 7)] 1, 0⟩;
      let s := wg.onCore 0x210 (fun c => { c with dir := [(l, ⟨[0x201], true, true, 0, 0, []⟩)] });
      let t := wg.onCore 0x210 (fun c => { c with dir := [(l, ⟨[0x201], true, false, 0, 0, []⟩)], helds := [r] });
      2 ^ 64 + 0x2000 % 2 ^ 48 / 256 * 256 = l ∧ wg.lineHeld 0x210 l = false ∧ s.lineHeld 0x210 l = true ∧ (s.core 0x210).helds = []
        ∧ t.lineHeld 0x210 l = true ∧ (t.core 0x210).helds = [r] ∧ (t.core 0x210).hosted = [] ∧ padKey r.key = false
        ∧ (t.translate r.key true).toOption = some l ∧ lineOf l = l ∧ t.agentReqs = [] ∧ r.cid < hostCid
        ∧ (match ((t.onCore 0x210 (fun c => { c with helds := [] })).home 0x210 r).2 with
          | .refused => false
          | _ => true) = true) := by decide +kernel

/-- The posted writes of function 0's hub, one of which waits at core 0x210. -/
def wpost : State :=
  wh0.onCore 0x210 (fun c => { c with helds := [⟨postedCid 0, 0, 0, none, 0x2000, globalBase + 0x2000, .store [(0, 7)] 1, 0⟩] })

/-- Core 0x201 shares a line of core 0x210's. -/
def wsh (key : Nat) : State := wg.onCore 0x210 (fun c => { c with dir := [(lineOf key, ⟨[0x201], false, false, 0, 0, []⟩)] })

theorem witness_RegisterHalves_launch :
    ((wh0.isFn 0 = true ∧ wh0.hubUp (hubOfFn 0) = true ∧ wg.hubUp (hubOfFn 0) = false)
      ∧ (rangeFor (wh0.part (wh0.fnPart 0)).table 0x2000).isSome = true
      ∧ (wh0.translate (vkey (spaceOf (wh0.fnPart 0) 0) (0x2000 : Word)) false).toOption = some (globalBase + 0x2000)
      ∧ wh0.blocksHeld (wh0.fnPart 0) < 64 ∧ wg.fnHas 0 0x200 = true ∧ wg.fnHas 0 31 = false)
    ∧ wh0.agentBehind (postedCid 0) = none ∧ wpost.agentBehind (postedCid 0) = some 0x210
    ∧ ((wh0.onFunc 0 (fun f => { f with launchw := 0x2000 })).func 0).launchw = 0x2000
    ∧ (32 ≤ (cx w0 (fun c => { c with posted := List.replicate 32 (rq .setf) })).me.unack
      ∧ (0xFF0200000000 : Word).toNat / 2 ^ 40 % 2 ^ 8 = 0xFF
      ∧ (0xFF0200000000 : Word).toNat / 2 ^ 32 % 2 ^ 8 = 2) := by decide +kernel

theorem witness_full_scheduler :
    64 ≤ ((wh0.setPart 0xFF { wh0.part 0xFF with submitted := List.replicate 64 b0 }).blocksHeld ((wh0.setPart 0xFF { wh0.part 0xFF with
      submitted := List.replicate 64 b0 }).fnPart 0)) := by decide +kernel

theorem witness_HostAndBringUp :
    ((State.reset.func 0).bootSt = 0 ∧ State.reset.ready.getLsbD 16 = false ∧ State.reset.ready.getLsbD 48 = false ∧ 0x100 ∈ coresOfDie 0)
    ∧ ([1, 2, 3, 0xF].all (fun n => ((w1.onFunc 0 (fun f => { f with bootSt := n })).func 0).bootSt == n)) = true
    ∧ (w1.isFn 0 = true ∧ w1.isFn 3 = false)
    ∧ (let s := w1.onFunc 0 (fun f => { f with fwfault := [(0x200, 5)], hmq := [⟨0x200, 7, 0⟩], hmdest := 0x200 });
      (s.func 0).fwfault = [(0x200, 5)] ∧ (s.func 0).hmq = [⟨0x200, 7, 0⟩] ∧ s.net = [] ∧ (s.func 0).hmdest.toNat / 2 ^ 24 % 2 ^ 8 = 0
        ∧ s.fnHas 0 ((s.func 0).hmdest.toNat % 2 ^ 12) = true)
    ∧ (rangeFor (wg.part (wg.fnPart 0)).table 0x2010 = some ⟨0x2000, 0x1000, 0x1000, 2, false, false⟩ ∧ wg.MemOk
      ∧ (wg.translate (vkey (spaceOf (wg.fnPart 0) 0) (0x2010 : Word)) true).toOption = some (globalBase + 0x2010)
      ∧ (wg.translate (vkey (spaceOf (wg.fnPart 0) 0) (0x2010 : Word)) false).toOption = some (globalBase + 0x2010) ∧ padKey (globalBase + 0x2010) = false
      ∧ wg.severed (hubOfFn 0) (homeInRange ⟨0x2000, 0x1000, 0x1000, 2, false, false⟩ 0x2010) = false
      ∧ wg.agentFree (postedCid 0) (globalBase + 0x2010) 8 = true ∧ wg.agentFree (cxlCid 0) (globalBase + 0x2010) 8 = true
      ∧ wpost.agentFree (postedCid 0) (globalBase + 0x2010) 8 = false
      ∧ (wsh (globalBase + 0x2010)).agentFree (cxlCid 0) (globalBase + 0x2010) 8 = false)
    ∧ wg.hostKey 0 0x9000 true = none ∧ wg.hostKey 0 0x9000 false = none
    ∧ (0x1FF : Nat) % 2 ^ 8 = wg.fnPart 0 := by decide +kernel

theorem witness_DebugAndTrace :
    (w1.core 0x200).dbg.stopped = false
    ∧ (let s := (w1.onCore 0x200 (fun c => { c with dbg := { c.dbg with stopped := true } })).onFunc 0 (fun f =>
        { f with dbgsel := 0x200, dbgreg := 0x1005 });
      s.isFn 0 = true ∧ s.fnHas 0 0x200 = true ∧ (s.func 0).dbgsel.toNat = 0x200 ∧ (s.core 0x200).dbg.stopped = true
        ∧ (s.core 0x200).dbg.stepping = none
        ∧ 0x200 * 16 + (s.func 0).dbgreg.toNat / 2 ^ 12 % 16 = 0x2001 ∧ (s.func 0).dbgreg.toNat % 2 ^ 12 = 5 ∧ (s.func 0).dbgreg.toNat / 2 ^ 16 = 0
        ∧ (s.ctx 0x2001).view 5 = some 7)
    ∧ (0x10030 : Nat) / 2 ^ 16 = 1 ∧ (0x100 : Word).toNat / 2 ^ 8 % 4 = 1 ∧ (0x31 : Word).toNat / 2 ^ 8 % 4 = 0 := by decide +kernel

/-- Core 0x200 with one record that it has sent and that has not arrived, in a state that maps its place or not. -/
def wtr (st : TraceSt) : State :=
  wg.onCore 0x200 (fun c => { c with traceNet := [⟨⟨1, 1, 0, 0x1000, false, 9, 0, 0⟩, 0, vkey SP (0 : Word), st⟩] })

theorem witness_Trace_records :
    ((co wg (fun c => { c with trace := [⟨1, 1, 0, 0x1000, false, 9, 0, 0⟩] })).core 0x200).trace = [⟨1, 1, 0, 0x1000, false, 9, 0, 0⟩]
    ∧ (let s := wtr .sent
      (s.core 0x200).traceNet.map (fun e => e.st) = [.sent] ∧ (s.core 0x200).trcctl.getLsbD 9 = false ∧ s.MemOk
        ∧ (s.translate (vkey SP (0 : Word)) true).toOption = some globalBase ∧ padKey globalBase = false ∧ s.agentFree (traceCid 0x200) globalBase 32 = true
        ∧ (wsh globalBase).agentFree (traceCid 0x200) globalBase 32 = false
        ∧ (({ s with pages := [] }).translate (vkey SP (0 : Word)) true).toOption = none)
    ∧ ((wtr .failed).core 0x200).traceNet.map (fun e => e.st) = [.failed]
    ∧ (((wtr .failed).core 0x200).delegq.filter (fun q => q.src == none)).length < 16 := by decide +kernel

theorem witness_VectorInstructionsEnterTheQueue :
    (∃ f u x y, vecForm (.vld 0 (.g 8) 0 .i32 1) = some f ∧ mx.operands f.a f.b .zr = .ok u x y ∧ mx.VecClear (.vld 0 (.g 8) 0 .i32 1) f x y
      ∧ mx.Signed (.vld 0 (.g 8) 0 .i32 1) false)
    ∧ (∃ f u x y, vecForm (.vext 0 3 .i32 1) = some f ∧ mx.operands f.a f.b .zr = .ok u x y ∧ f.al = 0 ∧ f.el = some .i32 ∧ y.toNat < VType.i32.count)
    ∧ (∃ f, vecForm (.vand 0 0 0 0 .i32 1) = some f ∧ f.al = 0 ∧ f.el = none ∧ mx.unbudgeted mx.cur = false)
    ∧ 16 ≤ (List.replicate 16 mm).length
    ∧ (tx mx (fun t => { t with ebudget := 0 })).th.ebudget.toNat < (mx.core mx.here).ecost.toNat / 2 ^ 16 % 2 ^ 16
    ∧ (w1.me.barred = none ∧ A.toNat % 256 = 0 ∧ (A + 8).toNat % 256 ≠ 0 ∧ (A + 0x80000).toNat / 2 ^ 19 % 2 ^ 12 ≠ w1.here) :=
  ⟨⟨_, _, _, _, rfl, rfl, ⟨by decide, fun _ => by decide +kernel, fun _ h => (by cases h), by decide +kernel, fun ⟨_, _, _, _, h⟩ => (by cases h), by decide +kernel⟩,
      by decide +kernel⟩, ⟨_, _, _, _, rfl, rfl, rfl, rfl, by decide +kernel⟩, ⟨_, rfl, by decide +kernel⟩, by decide +kernel⟩

/-- Core 0x200 with one vector command of context 1. -/
def vc (i : Instr) (a b : Word) : VCmd := ⟨0x2001, 0, i, a, b, 0, 0⟩
def wv (c : VCmd) : State := w1.onCore 0x200 (fun x => { x with vq := [c] })

theorem witness_VectorCommandsArePerformed :
    ([vc (.vaddInt 0 1 2 0 .i16 0) 0 0, vc (.vld 0 (.g 8) 0 .i32 0) A 0, vc (.vst 0 (.g 8) 0 .i32 0) A 0, vc (.vext 0 3 .i32 0) 0 2].all (fun c =>
        (wv c).vcmdAt 0x200 0 == some c && decide (c.cid < 65536) && !((wv c).ctx c.cid).th.saved && ((wv c).core 0x200).atoms.isEmpty
          && !((wv c).cluster (clusterOf 0x200)).stopped && c.start == 0)) = true
    ∧ vmem (.vaddInt 0 1 2 0 .i16 0) 0 0 th1 = none
    ∧ (∃ q, vecInt (.vaddInt 0 1 2 0 .i16 0) = some q ∧ q.ty = .i16)
    ∧ ((wv (vc (.vld 0 (.g 8) 0 .i32 0) A 0)).core 0x200).powered = true ∧ (wv (vc (.vld 0 (.g 8) 0 .i32 0) A 0)).MemOk
    ∧ (let ok (f : Nat → Word) : Bool := (List.range 16).all (fun j => decide (padBytes 0x200 (f j) 4) && (f j).toNat % 4 == 0);
      ok (fun j => A + BitVec.ofNat 64 (j * 4)) && ok (fun j => A + BitVec.ofNat 64 j * 8) && ok (fun j => A + BitVec.ofNat 64 (th1.el .n32 3 j))) = true
    ∧ (padBytes 0x200 A 8 ∧ A.toNat % 8 = 0 ∧ coreOf 0x2001 = 0x200)
    ∧ (let s := (wv (vc (.vldk 0 (.g 8) 0) A 0)).onCore 0x200 (fun c => { c with powered := false });
      (s.core 0x200).powered = false ∧ (s.ctx 0x2001).th.inTrap = false ∧ s.vcmdAt 0x200 0 = some (vc (.vldk 0 (.g 8) 0) A 0)) :=
  ⟨by decide +kernel, rfl, ⟨_, rfl, rfl⟩, by decide +kernel⟩

/-- v1 to v3 hold 1, 2 and 3 in FP32 in element 0, which alone mask 2 names. -/
def wel : Thread :=
  { th1 with vreg := vput (vput (vput [] .f32 1 0 0x3F800000) .f32 2 0 0x40000000) .f32 3 0 0x40400000, kreg := [(1, 1)] }

theorem witness_VectorCommands_numbers :
    ((fpForm (.vfma 0 1 2 3 2 .f32 0)).map (fun q => (q.d, q.m, q.a, q.b, q.ty)) = some (0, 2, 1, 2, .f32) ∧ VType.f32.fmt = some fp32)
    ∧ (fpNum fp32 (wel.el .f32 1 0) = some 1 ∧ fpNum fp32 (wel.el .f32 2 0) = some 2 ∧ fpNum fp32 (wel.el .f32 3 0) = some 3)
    ∧ (wel.active 2 0 = true ∧ wel.active 2 1 = false ∧ VType.i32.fmt = none)
    ∧ (fpNum fp32 0x40A00000 = some 5 ∧ 0x40A00000 < 2 ^ fp32.width)
    ∧ fpExact (.vfma 0 1 2 3 2 .f32 0) 1 2 3 5 ∧ fpExact (.vrsq 0 1 2 .f32 0) (1 / 4) 0 0 2
    ∧ (∀ n, n < 16 → fpNum fp32 n ≠ some (1 / 3))
    ∧ (fpNan fp32 0x7F800001 ∧ ¬ fpQuiet fp32 0x7F800001)
    ∧ fpInvalid (.vaddFp 0 1 2 2 .f32 0) fp32 (fpInf fp32 false) (fpInf fp32 true)
    ∧ fpPole (.vdiv 0 1 2 2 .f32 0) fp32 0x3F800000 0x80000000 true := by
  refine ⟨by decide +kernel, by decide +kernel, by decide +kernel, by decide +kernel, ?_, ?_, by decide +kernel, ?_⟩
  · exact (by decide +kernel : (5 : Rat) = 1 * 2 + 3)
  · exact (by decide +kernel : (0 : Rat) < 2 ∧ (2 : Rat) * 2 * (1 / 4) = 1)
  · exact ⟨⟨(by decide +kernel : fpExp fp32 0x7F800001 = 0xFF ∧ fpFrac fp32 0x7F800001 ≠ 0), fun h => absurd h.2 (by decide +kernel)⟩, ⟨false, rfl, rfl⟩,
      ⟨1, by decide +kernel⟩, by decide +kernel⟩

theorem witness_VectorCommands_moves :
    ([.vsel 0 1 2 2 .f32 0, .vperm 0 1 2 2 .f32 0, .vslup 0 1 2 2 .f32 0, .vsldn 0 1 2 2 .f32 0, .vbcst 0 (.g 8) 2 .f32 0, .vins 0 (.g 8) 2 .f32 0] :
      List Instr).all (fun i => (vecMove wel 9 3 i).isSome) = true
    ∧ ((List.range VType.f32.count).filter (fun j => wel.active 2 j)) = [0]
    ∧ fpNum fp32 (wel.el .f32 3 0) = some ((3 : Int) : Rat) ∧ ((List.map (fun (_ : Nat) => (3 : Int).natAbs) [0]).sum ≤ 2 ^ fp32.f) := by decide +kernel

/-! ### One step of each of the other instructions -/

/-- Words that the spec's chapters write out beside the instruction (R115, R124 to R170, R180 to R212, and chapters 15 and 16). -/
theorem test_decode_spec_words :
    [0x04C74001, 0x04430220, 0x08432040, 0x0C220001, 0x11EFFFF0, 0x29000800, 0x2D801234, 0x64000040, 0x6420BEEF, 0x64401234, 0x68800006, 0x6C00FFFB,
      0xAC000080, 0xAC000100, 0xAC000180, 0xAC040380, 0xB0640000, 0xB0053300, 0xC1400010, 0xC0020091, 0xC4200000, 0xC4450032, 0xC4842000, 0x98C7C000,
      0x98C7B000, 0x9844C100, 0x04748030, 0xABC3FC00, 0x8843F002, 0x842283FF, 0x8C85C000, 0x9085C000, 0xE10E0340, 0xF4001400].map decode
    = [.addw (.g 6) (.g 7) (.g 8), .home (.g 2) (.g 3), .div (.g 2) (.g 3) (.g 4), .clzw (.g 1) (.g 2), .addi (.g 15) (.g 15) (-16), .li (.g 8) 2048,
      .lih (.g 12) 0x1234, .align 64, .bsig 0xBEEF, .bsigt 0x1234, .nest (.g 4) 6, .next (-5), .wfw, .halt, .yield, .lnch (.g 4), .actb (.g 3) (.g 4),
      .cpush (.g 5) (.g 6), .mfs (.g 10) 0x001, .mts (.g 2) 0x009, .tret, .settle (.g 5) 3 2, .scrub (.g 4) 8192, .faa (.g 6) (.g 7) true false .th,
      .faa (.g 6) (.g 7) false true .pk, .fcas (.g 2) (.g 4) true false .th, .orR (.g 3) .ib .zr, .wait 15 0 15 15, .st (.g 2) (.g 3) .d true .pk 2,
      .ldx (.g 1) (.g 2) .w false .th (-1), .ldf (.g 4) (.g 5) false .th 0, .stf (.g 4) (.g 5) false .th 0, .vcmpFp 2 0 7 0 2 .f32 0, .ccan 0].map .ok := rfl

/-- R115: words of an unassigned major, and a reserved bit set, decode to nothing. -/
theorem test_illegal_words : ([0x00000000, 0x3C000000, 0x70000000, 0xB4000000, 0xC8000000, 0xF8000000, 0xFFFFFFFF, 0xC4200001, 0x600E0001] : List Word32).all
    (fun w => (decode w).toOption.isNone) = true := by decide

/-- WellFormed refuses: a lane as a base, cq as a destination, a field that runs past bit 63, and an event's word. -/
theorem test_ill_formed :
    ([.ext (.g 5) (.g 6) 60 7, .add .pc (.g 5) (.g 6), .li .wid 5, .jalr .cq (.g 5), .ld .zr .mq .d false .th 0, .faa (.port .east) (.g 5) true false .th,
      .mfs .gt 0] : List Instr).all (fun i => !i.wf) = true ∧ encode .powerUp = none := by decide

/-- pc after an instruction in context 1 with g5 = 7 and g6 = 3: forward 5 words, back 4 words, or on. -/
theorem test_branches :
    ([ (.beq (.g 5) (.g 6) 5, 0x1004), (.bne (.g 5) (.g 6) 5, 0x1014), (.blt (.g 6) (.g 5) (-4), 0xFF0), (.bge (.g 6) (.g 5) 5, 0x1004), (.bltn (.g 5) (.g 8) 5, 0x1014),
      (.bgen (.g 8) (.g 5) 5, 0x1014), (.blt (.g 8) (.g 5) 5, 0x1014), (.j (-3), 0xFF4), (.jal 5, 0x1014), (.jr (.g 10), 0x2000), (.jalr (.g 5) (.g 10), 0x2000),
      (.align 0, 0x1004), (.bsig 0xBEEF, 0x1004), (.bsigt 0x1234, 0x1004), (.next 9, 0x1004) ] : List (Instr × Addr48)).all
      (fun p => ans (exec p.1 w1) (fun t => t.th.pc == p.2)) = true
    ∧ ans (exec (.jal 5) w1) (fun t => t.me.view 14 == some 0x1004) = true
    ∧ ans (exec (.jalr (.g 5) (.g 10)) w1) (fun t => t.me.view 5 == some 0x1004) = true := by decide +kernel

/-- R52: the chunk of 5 from a counter of 0 with N 10, P 2 and MINC 3, and the iteration 5 of extents 4 and 3 by NEXT. -/
theorem test_nest :
    ans (exec (.nest (.g 8) 4) wn) (fun t => t.th.nest.i == 0 && t.th.nest.stop == 5 && t.mem.nat (K + 64) 8 == 5 && t.th.pc == 0x1004) = true
    ∧ ans (exec (.next (-4)) (tx wn (fun t => { t with nest := { t.nest with active := true, e0 := 4, e1 := 3, i := 4, stop := 6 } })))
      (fun t => t.th.pc == 0xFF0 && t.th.ix.get 0 9 == 1 && t.th.ix.get 1 9 == 1 && t.th.ix.get 2 9 == 0) = true := by decide +kernel

/-- Context 1 with 0x8877665544332211 at K and g7 = 0x0102030405060708. -/
def wmem : State := { tx w1 (fun t => { t with gpr := t.gpr.set 7 0x0102030405060708 }) with mem := memOf [(K, 8, 0x8877665544332211)] }

/-- R10, R181: sizes and extension of loads, the byte order, and what a store leaves. -/
theorem test_loads_and_stores :
    ([ (.ld (.g 5) (.g 8) .b false .th 7, 0x88), (.ld (.g 5) (.g 8) .h false .th 3, 0x8877), (.ld (.g 5) (.g 8) .w false .th 0, 0x44332211),
      (.ld (.g 5) (.g 8) .d false .th 0, 0x8877665544332211), (.ldx (.g 5) (.g 8) .b false .th 7, 0xFFFFFFFFFFFFFF88),
      (.ldx (.g 5) (.g 8) .w false .th 1, 0xFFFFFFFF88776655) ] : List (Instr × Word)).all (fun p => ans (exec p.1 wmem) (fun t => t.me.view 5 == some p.2)) = true
    ∧ ([ (.st (.g 7) (.g 8) .b false .th 1, 0x8877665544330811), (.st (.g 7) (.g 8) .h false .th 1, 0x8877665507082211),
      (.st (.g 7) (.g 8) .w false .th 1, 0x0506070844332211), (.st (.g 7) (.g 8) .d false .th 0, 0x0102030405060708) ] : List (Instr × Nat)).all
        (fun p => ans (exec p.1 wmem) (fun t => t.mem.nat K 8 == p.2)) = true
    ∧ ans (exec (.ld (.g 5) (.g 10) .w false .th 1) w1) (fun t => t.me.run == .parked .delegation && t.th.detail == 0x2004) = true := by decide +kernel

/-- R188: the atomics on the word at K with operand g7, whole and by halves; FCAS compares with g8. -/
theorem test_atomics :
    ([ (.faa (.g 7) (.g 8) true false .th, 0x8979695949392919), (.faa (.g 7) (.g 8) false false .th, 0x8877665549392919), (.fxch (.g 7) (.g 8) true false .th, 0x0102030405060708),
      (.fmin (.g 7) (.g 8) true false .th, 0x8877665544332211), (.fmax (.g 7) (.g 8) true false .th, 0x0102030405060708),
      (.fand (.g 7) (.g 8) true false .th, 0x0002020404020200), (.forA (.g 7) (.g 8) true false .th, 0x8977675545372719),
      (.fxor (.g 7) (.g 8) true false .th, 0x8975655141352519), (.fcas (.g 7) (.g 8) true false .th, 0x8877665544332211) ] : List (Instr × Nat)).all
      (fun p => ans (exec p.1 wmem) (fun t => t.mem.nat K 8 == p.2 && (t.me.view 7 == some (if p.1 == .faa (.g 7) (.g 8) false false .th then 0x44332211 else 0x8877665544332211))))
      = true := by decide +kernel

/-- R184, R185, R198: full-empty operations at the own scratchpad, full and empty. -/
theorem test_full_empty :
    ans (exec (.ldf (.g 5) (.g 8) false .th 0) wmem) (fun t => t.me.view 5 == some 0x8877665544332211 && !t.full 0x200 K && t.th.resv == [K]) = true
    ∧ ans (exec (.ldff (.g 5) (.g 8) false .th 0) wmem) (fun t => t.me.view 5 == some 0x8877665544332211 && t.full 0x200 K) = true
    ∧ ans (exec (.stf (.g 5) (.g 8) false .th 0) we) (fun t => t.mem.nat K 8 == 7 && t.full 0x200 K) = true
    ∧ ans (exec (.sete (.g 8)) wmem) (fun t => !t.full 0x200 K) = true ∧ ans (exec (.setf (.g 8)) we) (fun t => t.full 0x200 K) = true
    ∧ ans (exec (.ldf (.g 5) (.g 8) false .th 0) we) (fun t => t.me.run == .waiting .reply && (t.core 0x200).waits.length == 1) = true := by decide +kernel

/-- R208 to R211: phase 3, 4 expected, 1 arrived; two more arrive, then three; BWT of phase 7 is answered; BINIT of 4. -/
theorem test_barriers :
    ans (exec (.arv (.g 5) (.g 8) false .th 2) wb) (fun t => t.me.view 5 == some 3 && t.mem.nat K 8 == 3 * 2 ^ 40 + 4 * 2 ^ 20 + 3) = true
    ∧ ans (exec (.arv (.g 5) (.g 8) false .th 3) wb) (fun t => t.me.view 5 == some 0x13 && t.mem.nat K 8 == 4 * 2 ^ 40 + 4 * 2 ^ 20) = true
    ∧ ans (exec (.arvp (.g 8) false .th 3) wb) (fun t => t.mem.nat K 8 == 4 * 2 ^ 40 + 4 * 2 ^ 20) = true
    ∧ ans (exec (.bwt (.g 8) (.g 5) false .th) wb) (fun t => t.th.pc == 0x1004) = true
    ∧ ans (exec (.binit (.g 8) (.g 6)) wb) (fun t => t.mem.nat K 8 == 3 * 2 ^ 20) = true := by decide +kernel

/-- R191 to R197, R212: at the own scratchpad, and a migration to core 0x201. -/
theorem test_watch_wait_travel :
    ans (exec (.watch (.g 8)) w1) (fun t => (t.core 0x200).watches == [(K, 0x2001)]) = true
    ∧ ans (exec (.unwatch (.g 8)) ww) (fun t => (t.core 0x200).watches == []) = true
    ∧ ans (exec (.waita (.g 5) (.g 8)) ww) (fun t => t.th.pc == 0x1004) = true ∧ ans (exec (.waita (.g 6) (.g 8)) ww) (fun t => t.me.run == .waiting .watch) = true
    ∧ ([.pref (.g 8), .fence .sy, .flush (.g 8), .wait 0 0 0 0, .yield] : List Instr).all (fun i => ans (exec i w1) (fun t => t.th.pc == 0x1004)) = true
    ∧ ans (exec (.migr (.g 5) (.g 9)) wg) (fun t => t.me.run == .vacant && (match t.net with
      | [⟨0x200, 0x201, .migrate p⟩] => p.th.pc == 0x1004 && p.th.gpr.all (fun e => decide (e.1 < 3))
      | _ => false)) = true := by decide +kernel

/-- R199 to R205: the header of a SEND with tag 2 and detail 3 to context 1 of core 0x201; TSEND at stamp 8; TDEQ of stamp 9. -/
theorem test_messages :
    ans (exec (.send (.g 5) (.g 6)) wm) (fun t => match t.net with
      | [⟨0x200, 0x201, .send _ 1 _ m⟩] => m.hdr == 0x2001000200000003 && m.data == 3
      | _ => false) = true
    ∧ ans (exec (.tsend (.g 5) (.g 6)) wt) (fun t => match t.net with
      | [⟨0x200, 0x201, .timed _ _ m⟩] => m.stamp == 8 && m.msg.data == 3
      | _ => false) = true
    ∧ ans (exec (.tdeq (.g 7)) wt) (fun t => t.me.view 7 == some 77 && t.th.msghdr == 1 && ((t.core 0x200).lt.map (fun t => t.vt)) == some 9) = true
    ∧ ans (exec .tnull wt) (fun t => ((t.core 0x200).lt.map (fun t => t.outs.all (fun o => o.tnull))) == some true) = true
    ∧ ans (exec (.advt (.g 10)) wt) (fun t => ((t.core 0x200).lt.map (fun t => t.vt)) == some 9) = true := by decide +kernel

/-- R116, R170 to R173, R219, R220: entry with a handler, delegation without one, TRET, BRK, and PRIVILEGE outside context 0. -/
theorem test_traps :
    ans (exec (.trap 7) (tx w1 (fun t => { t with tvec := 0x800 }))) (fun t =>
      t.th.pc == 0x2000 && t.th.epc == 0x400 && t.th.detail == 7 && t.th.inTrap && bits t.th.cause 0 6 == 0x08) = true
    ∧ ans (exec (.brk 1) w1) (fun t => t.me.run == .parked .delegation && (t.core 0x200).delegq == [⟨some 1, .break_, .precise, 0, 1⟩]) = true
    ∧ ans (exec .tret (tx w1 (fun t => { t with inTrap := true, epc := 0x500 }))) (fun t => t.th.pc == 0x1400 && !t.th.inTrap) = true
    ∧ ans (exec (.prmt (.g 5)) w1) (fun t => (t.core 0x200).delegq == [⟨some 1, .privilege, .precise, 0, 0xAC050300⟩]) = true := by decide +kernel

/-- R166 to R169: MFS and MTS, and the supervisor's own registers. -/
theorem test_system_registers :
    ans (exec (.mfs (.g 7) 0x001) w1) (fun t => t.me.view 7 == some 0x7F1200) = true
    ∧ ans (exec (.mfs (.g 7) 0x002) w1) (fun t => t.me.view 7 == some 1) = true
    ∧ ans (exec (.mts (.g 5) 0x030) w1) (fun t => t.th.tvec == 1) = true
    ∧ ans (exec (.mts (.g 5) 0x034) w0) (fun t => (t.core 0x200).deleg == 7) = true
    ∧ ans (exec (.settle (.g 5) 0 1) (cx (tx w1 (fun t => { t with inTrap := true, score := [(0, ⟨⟨0, 1, none, 0, A, .req (rq (.stf 5))⟩, false⟩)] }))
      (fun c => { c with posted := [rq (.stf 5)] }))) (fun t => t.th.settled && t.me.unack == 0) = true
    ∧ ans (exec (.scrub (.g 8) 2) w0) (fun t => (t.core 0x200).scrubs == [(4, 2)]) = true := by decide +kernel

/-- R149 to R156: SPAWN to the own die, LNCH, WFW, HALT, and a context started, reaped and pre-empted by context 0. -/
theorem test_tasks :
    ans (exec (.spawn (.g 8) .zr 0) ws) (fun t => match (t.die 1).queue with
      | [k] => k.entry == 0x5000 && k.args.headD 0 == 11 && k.launch == L1
      | _ => false) = true
    ∧ ans (exec (.lnch (.g 9)) ws) (fun t => ((t.part 0xFF).submitted.map (fun b => b.addr)) == [A + 0x100]) = true
    ∧ ans (exec .wfw w1) (fun t => t.me.run == .idle && t.th.pc == 0x1004) = true ∧ ans (exec .halt w1) (fun t => t.me.run == .vacant) = true
    ∧ ans (exec (.ctxs (.g 5) (.g 8)) wz) (fun t => (t.ctx 0x2007).run == .runnable && (t.ctx 0x2007).th.pc == 0x5000 && (t.ctx 0x2007).th.migmask == 3) = true
    ∧ ans (exec (.ctxr (.g 5)) (wz.onCtx 0x2007 (fun c => { c with run := .killed }))) (fun t => (t.ctx 0x2007).run == .vacant) = true
    ∧ ans (exec (.prmt (.g 5)) (wz.onCtx 0x2007 (fun c => { c with run := .runnable }))) (fun t => (t.ctx 0x2007).preempt) = true := by decide +kernel

/-- R157 to R165: the life of an activity, one step each. -/
theorem test_activities :
    ans (exec (.actb (.g 7) (.g 6)) ws) (fun t => t.me.view 7 == some 0x0000000100010003) = true
    ∧ ans (exec (.actj (.g 11)) (wh .opened 0)) (fun t => t.th.actcur == H1 && ((t.actOf H1).map (fun a => a.parts)) == some 1) = true
    ∧ ans (exec .actd (tx (wh .opened 1) (fun t => { t with actcur := H1 }))) (fun t => t.th.actcur == 0 && ((t.actOf H1).map (fun a => a.parts)) == some 0) = true
    ∧ ans (exec (.acte (.g 11)) (wh .opened 0)) (fun t => t.actState H1 == .free) = true
    ∧ ans (exec (.acta (.g 11)) (wh .opened 1)) (fun t => t.actState H1 == .abandoning) = true
    ∧ ans (exec (.actst (.g 7) (.g 11)) (wh .abandoned 0)) (fun t => t.me.view 7 == some 3) = true
    ∧ ans (exec (.actst (.g 7) (.g 11)) ws) (fun t => t.me.view 7 == some 15) = true
    ∧ ans (exec (.cpush (.g 12) (.g 8)) wk) (fun t => t.me.run == .waiting .durable && (((t.die 1).sepia.find 0).map (fun r => r.routine)) == some 0x4000) = true
    ∧ ans (exec (.cret .zr) ((tx ws (fun t => { t with comp := true, routine := some (1, 0) })).onDie 1 (fun d => { d with sepia := [(0, rc 1 true true)] })))
      (fun t => t.me.run == .vacant && (((t.die 1).sepia.find 0).map (fun r => r.done)) == some true) = true := by decide +kernel

/-- Element 0 of v0 after a command of the vector siding whose v1, v2 and v3 hold x, y and z in element 0; g11 is the command's slot a. -/
def vres (i : Instr) (ty : VType) (x y z : Nat) (r : Nat) : Bool :=
  let s := (wv (vc i 0x40400000 2)).onCtx 0x2001 (fun c => { c with th := { c.th with vreg := vput (vput (vput [] ty 1 0 x) ty 2 0 y) ty 3 0 z, kreg := [(1, 1)] } })
  ans (execVectorComplete 0x200 0 s) (fun t => t.th.el ty 0 0 == r)

/-- R285 to R289 on FP32: 1, 2 and 3 in, by hand; and the meeting NaNs of chapter 14. -/
theorem test_vector_floating :
    ([ (.vaddFp 0 1 2 0 .f32 0, 0x40400000), (.vsubFp 0 1 2 0 .f32 0, 0xBF800000), (.vmulFp 0 2 3 0 .f32 0, 0x40C00000), (.vfma 0 2 3 1 0 .f32 0, 0x40E00000),
      (.vfms 0 2 3 1 0 .f32 0, 0x40A00000), (.vminFp 0 1 2 0 .f32 0, 0x3F800000), (.vmaxFp 0 1 2 0 .f32 0, 0x40000000), (.vabsFp 0 1 0 .f32 0, 0x3F800000),
      (.vnegFp 0 1 0 .f32 0, 0xBF800000), (.vdiv 0 1 2 0 .f32 0, 0x3F000000), (.vsqrt 0 1 0 .f32 0, 0x3F800000), (.vrcp 0 2 0 .f32 0, 0x3F000000),
      (.vrsq 0 1 0 .f32 0, 0x3F800000), (.vredFp 0 2 2 0 .f32 0, 0x40000000), (.vsel 0 2 3 2 .f32 0, 0x40000000), (.vbcst 0 (.g 11) 0 .f32 0, 0x40400000) ] :
      List (Instr × Nat)).all (fun p => vres p.1 .f32 0x3F800000 0x40000000 0x40400000 p.2) = true
    ∧ vres (.vaddFp 0 1 2 0 .f32 0) .f32 0x7FE9C446 0x7FC90403 0 0x7FC90403 = true ∧ vres (.vmulFp 0 1 2 0 .f32 0) .f32 0x7FE9C446 0x7FC90403 0 0x7FE9C446 = true
    ∧ vres (.vaddFp 0 1 2 2 .f64 0) .f64 0x3FF0000000000000 0x4000000000000000 0 0x4008000000000000 = true
    ∧ vres (.vcvt 0 1 .i32 2 .f32 0) .f32 5 0 0 0x40A00000 = true := by decide +kernel

/-- R288 to R298 on the integer types, by hand. -/
theorem test_vector_integer :
    ([ (.vaddInt 0 1 2 0 .i8 0, .i8, 0x7F, 1, 0x80), (.vsubInt 0 1 2 0 .i16 0, .i16, 0, 1, 0xFFFF), (.vmulInt 0 1 2 0 .i32 0, .i32, 0x10000, 0x10001, 0x10000),
      (.vminInt 0 1 2 0 .i32 0, .i32, 0xFFFFFFFF, 1, 0xFFFFFFFF), (.vminInt 0 1 2 0 .n32 0, .n32, 0xFFFFFFFF, 1, 1), (.vmaxInt 0 1 2 0 .i32 0, .i32, 0xFFFFFFFF, 1, 1),
      (.vabsInt 0 1 0 .i8 0, .i8, 0xFF, 0, 1), (.vnegInt 0 1 0 .i16 0, .i16, 1, 0, 0xFFFF), (.vand 0 1 2 0 .i32 0, .i32, 12, 10, 8), (.vor 0 1 2 0 .i32 0, .i32, 12, 10, 14),
      (.vxor 0 1 2 0 .i32 0, .i32, 12, 10, 6), (.vandn 0 1 2 0 .i32 0, .i32, 12, 10, 4), (.vshl 0 1 2 0 .i16 0, .i16, 0x8001, 1, 2), (.vshr 0 1 2 0 .i16 0, .i16, 0x8001, 1, 0x4000),
      (.vsha 0 1 2 0 .i8 0, .i8, 0x80, 7, 0xFF), (.vredInt 0 1 2 0 .i32 0, .i32, 5, 0, 5), (.vperm 0 1 2 0 .i32 0, .i32, 9, 0, 9), (.vslup 0 1 2 2 .i32 0, .i32, 9, 1, 0), (.vsldn 0 1 2 0 .i32 0, .i32, 9, 0, 9),
      (.viota 0 0 .i32 0, .i32, 9, 9, 0), (.vpopk 0 2 .i32 0, .i32, 9, 9, 1), (.vins 0 (.g 8) 3 .i32 0, .i32, 9, 9, 0) ] : List (Instr × VType × Nat × Nat × Nat)).all
      (fun p => vres p.1 p.2.1 p.2.2.1 p.2.2.2.1 0 p.2.2.2.2) = true := by decide +kernel

/-- A vector command with slots a and 4, over words 5 and 6 at K, with 1 and 2 in element 0 of v1 and v2, and k1 = 3. -/
def vm (i : Instr) (a : Word) (p : State → Bool) : Bool :=
  ans (execVectorComplete 0x200 0 ({ wv (vc i a 4) with mem := memOf [(K, 8, 0x0000000600000005)] }.onCtx 0x2001 (fun c =>
    { c with th := { c.th with vreg := vput (vput [] .i32 1 0 1) .i32 2 0 2, kreg := [(1, 3)] } }))) p

/-- R290, R293 to R298: masks, and the vector's memory. -/
theorem test_vector_masks_and_memory :
    vm (.vcmpInt 1 1 2 0 2 .i32 0) 0 (fun t => t.th.kreg.get 1 0 == 1) = true ∧ vm (.vsetk 1 (.g 5) 0) 9 (fun t => t.th.kreg.get 1 0 == 9) = true
    ∧ vm (.vmovk 2 1 0) 0 (fun t => t.th.kreg.get 2 0 == 3) = true
    ∧ vm (.vld 0 (.g 8) 2 .i32 0) A (fun t => t.th.el .i32 0 0 == 5 && t.th.el .i32 0 1 == 6) = true
    ∧ vm (.vst 1 (.g 8) 2 .i32 0) A (fun t => t.mem.nat K 8 == 1) = true
    ∧ vm (.vlds 0 (.g 8) 6 2 .i32 0) A (fun t => t.th.el .i32 0 0 == 5 && t.th.el .i32 0 1 == 6) = true
    ∧ vm (.vsts 1 (.g 8) 6 2 .i32 0) A (fun t => t.mem.nat K 8 == 1) = true
    ∧ vm (.vgath 0 (.g 8) 3 2 .i32 0) A (fun t => t.th.el .i32 0 0 == 5 && t.th.el .i32 0 1 == 5) = true
    ∧ vm (.vscat 2 (.g 8) 3 2 .i32 0) A (fun t => t.mem.nat K 8 == 0x0000000600000000) = true
    ∧ vm (.vldk 2 (.g 8) 0) A (fun t => t.th.kreg.get 2 0 == 0x0000000600000005) = true
    ∧ vm (.vstk 1 (.g 8) 0) A (fun t => t.mem.nat K 8 == 3) = true
    ∧ vm (.vext 2 6 .i32 0) 0 (fun t => t.th.vq.map (fun h => h.data) == [0]) = true := by decide +kernel

/-- R302 to R308: a descriptor set, a copy of one byte taken, performed and ended. -/
theorem test_copies :
    ans (exec (.csetb (.g 8) .zr 1 2 0) mx) (fun t => t.th.descs.find 2 == some ⟨A, 0, 0, [], [], none, 0, none⟩ && t.th.ebudget == 99) = true
    ∧ ans (exec (.csetd (.g 5) (.g 6) 1 0 1) wd) (fun t => ((t.th.descs.find 0).map (fun d => (d.size.get 1 0, d.stride.get 1 0))) == some (7, 3)) = true
    ∧ ans (exec (.csetsScale (.g 8) (.g 6) 1 0) wd) (fun t => ((t.th.descs.find 0).map (fun d => (d.sbase, d.srow))) == some (some A, 3)) = true
    ∧ ans (exec (.csetsMcast (.g 11) .zr 1 1) wd) (fun t => ((t.th.descs.find 1).map (fun d => d.mcast)) == some (some (0x200, 0x200))) = true
    ∧ ans (exec (.cgo .zr .zr 1 0 1 0) wd) (fun t => (t.core 0x200).copies.length == 1 && t.th.pc == 0x1004) = true
    ∧ ans (exec (.copyPieceDone 0x200 0 0) { wcp (cp 0 false) with mem := memOf [(K, 1, 0xAB)] }) (fun t => t.mem.nat (K + 0x40) 1 == 0xAB) = true
    ∧ ans (exec (.copyComplete 0x200 0) (wcp (cp A true))) (fun t => t.mem.nat K 8 == 9 && t.th.cq.length == 1 && (t.core 0x200).copies == []) = true
    ∧ ans (exec (.ccan 1) (wcp (cp 0 false))) (fun t => t.th.cq.length == 1) = true := by decide +kernel

/-- R315 to R327: the configuration, a captured command, a k-step of one row (5 × 6 + 0), and MCLR. -/
theorem test_matrix :
    ans (exec (.mcfg .zr 1) mx) (fun t => t.th.mat.fmt == 0 && t.th.mat.live) = true ∧ ans (exec (.mpri 1 2) mx) (fun t => t.th.mat.prio == 2) = true
    ∧ ans (exec (.mwl (.g 8) .zr 1) mx) (fun t => t.th.mat.planes.length == 2) = true
    ∧ ans (exec (.mma (.g 11) (.g 8) 1) mx) (fun t => ((t.core 0x200).mat.map (fun c => (c.code, c.planes))) == [(2, [(A, 0)])]) = true
    ∧ ans (exec (.mclr .zr 1) mx) (fun t => ((t.core 0x200).mat.map (fun c => c.code)) == [4]) = true
    ∧ ans (exec (.macp .zr (.g 8) 1) mx) (fun t => ((t.core 0x200).mat.map (fun c => c.code)) == [3]) = true
    ∧ ans (exec (.mcan .zr 1) (mx.onCore 0x200 (fun c => { c with mat := [mm] }))) (fun t => (t.core 0x200).mat == [] && t.th.mq.length == 1) = true
    ∧ ans (exec (.kstepDone 0x200) { mrun mm true false with mem := memOf [(K, 1, 5), (K + 0x1000, 1, 6)] })
      (fun t => (t.core 0x200).acc.get 0 9 == 30) = true
    ∧ ans (exec (.matrixComplete 0x200) (mrun { mm with code := 4 } false false)) (fun t => t.th.mq.length == 1 && (t.core 0x200).running.isNone) = true := by
  decide +kernel

/-- R397: in packet mode an ADD lands its result (kind 0xC, with its value). -/
theorem test_trace_landing :
    ans (exec (.add (.g 7) (.g 5) (.g 6)) (co w1 (fun c => { c with trcctl := 0xC00 })))
      (fun t => ((t.core 0x200).trace.map (fun r => (r.kind, r.ctx, r.b))) == [(0xC, 1, w1.plain (.g 5) + w1.plain (.g 6))]) = true := by
  decide +kernel

/-- One step each of a few of the device's own steps (R62, R77, R177, R184, R201, R206, R244, R378). -/
theorem test_device_steps :
    ans (exec (.homeLdf 0) (nt w1 0x201 0x200 (.req (rq' .ldf)))) (fun t => t.net == [⟨0x200, 0x201, .reply (rq' .ldf) 0 none⟩] && !t.full 0x200 K) = true
    ∧ ans (exec (.homeStf 0) (nt we 0x201 0x200 (.req (rq' (.stf 5))))) (fun t => t.net == [⟨0x200, 0x201, .ack (rq' (.stf 5)) 1 none⟩] && t.mem.nat K 8 == 5) = true
    ∧ ans (exec (.lateValueReturn 0 0) wy) (fun t => t.me.view 7 == some 5 && t.th.pc == 0x1004 && t.me.bay.isNone) = true
    ∧ ans (exec (.messageAccept 0) (nt w1 0x201 0x200 (.send (rq' .msg) 1 L1 ⟨1, 2⟩))) (fun t => (t.core 0x200).ib == [⟨1, ⟨1, 2⟩⟩]) = true
    ∧ ans (exec (.portWordArrive 0) (nt w1 0x201 0x200 (.port 0x2001 .east 9))) (fun t => (t.fifo 0x2001 .east).words == [9]) = true
    ∧ ans (exec (.gangStopArrive 0x200) w1) (fun t => (t.core 0x200).gangStopped) = true
    ∧ ans (exec (.frequencyResume 48) ((w1.setCluster 48 { w1.cluster 48 with stopped := true }).onCore 0x200 (fun c => { c with gangDue := true })))
      (fun t => (t.core 0x200).gangStopped && !(t.cluster 48).stopped) = true
    ∧ ans (exec (.frequencyChange 48 1) w1) (fun t => (t.cluster 48).stopped && (t.cluster 48).level == 1) = true := by decide +kernel

end Sys2Proof.Tests
end

/-! SUPPORT. The result functions of the integer unit against the rules' values over unbounded numbers (R119, R122 to R127,
R131, R132, R134), and the two statements about what the integer unit writes. -/

namespace Sys2Proof.Machine

open Sys2Proof

/-! ### Registers and numbers (R119, R120) -/

theorem low64_natCast (n : Nat) : low64 n = BitVec.ofNat 64 n := BitVec.ofInt_natCast ..

@[simp] theorem low64_toNat (x : Word) : low64 x.toNat = x := by
  rw [low64_natCast, BitVec.ofNat_toNat, BitVec.setWidth_eq]

@[simp] theorem low64_toInt (x : Word) : low64 x.toInt = x := BitVec.ofInt_toInt

theorem low64_add (a b : Int) : low64 (a + b) = low64 a + low64 b := BitVec.ofInt_add ..

theorem low64_sub (a b : Int) : low64 (a - b) = low64 a - low64 b := by
  rw [low64, Int.sub_eq_add_neg, BitVec.ofInt_add, BitVec.ofInt_neg, BitVec.sub_eq_add_neg, low64, low64]

theorem sextLow_eq_low64 (v : BitVec 32) : sextLow v = low64 v.toInt := rfl

theorem sextLow_ofNat (n : Nat) : sextLow (BitVec.ofNat 32 n) = sext32 n := by
  simp only [sext32, sextLow, BitVec.signExtend, BitVec.toInt_eq_toNat_cond, BitVec.toNat_ofNat]
  congr 1
  omega

/-- How a W form's value is shown: it is enough that its 32 bits are those of the rule's number. -/
theorem sextLow_eq_sext32 {v : BitVec 32} {n : Nat} (h : v.toNat = n % 2 ^ 32) : sextLow v = sext32 n := by
  rw [← sextLow_ofNat]
  exact congrArg sextLow (BitVec.eq_of_toNat_eq (by rw [h, BitVec.toNat_ofNat]))

/-- A count of at most 32 has no sign to extend. -/
theorem sextLow_count {n : Nat} (h : n ≤ 32) : sextLow (BitVec.ofNat 32 n) = BitVec.ofNat 64 n := by
  rw [sextLow_ofNat, sext32, if_pos (by omega), Nat.mod_eq_of_lt (by omega), BitVec.ofInt_natCast]

@[simp] theorem lo32_toNat (x : Word) : (lo32 x).toNat = low32 x := by
  simp [lo32, low32]

theorem lo32_toInt (x : Word) : (lo32 x).toInt = sgn32 x := by
  have h : sextLow (lo32 x) = sext32 x.toNat := sextLow_ofNat x.toNat
  rw [sgn32, ← h, sextLow, BitVec.toInt_signExtend_of_le (by decide)]

theorem lo32_low64 (z : Int) : lo32 (low64 z) = BitVec.ofNat 32 (z % 2 ^ 32).toNat := by
  refine BitVec.eq_of_toNat_eq ?_
  rw [lo32_toNat, low32, low64, BitVec.toNat_ofInt, BitVec.toNat_ofNat]
  omega

/-! ### Sums, differences and logic (R122) -/

theorem add_eq_low64 (x y : Word) : x + y = low64 (x.toNat + y.toNat) := by
  rw [low64_add, low64_toNat, low64_toNat]

theorem sub_eq_low64 (x y : Word) : x - y = low64 ((x.toNat : Int) - y.toNat) := by
  rw [low64_sub, low64_toNat, low64_toNat]

theorem w32_add (x y : Word) : w32 (fun x y => x + y) x y = sext32 (low32 x + low32 y) :=
  sextLow_eq_sext32 (by rw [BitVec.toNat_add, lo32_toNat, lo32_toNat])

theorem w32_sub (x y : Word) : w32 (fun x y => x - y) x y = sext32 (low32 x + 2 ^ 32 - low32 y) := by
  refine sextLow_eq_sext32 ?_
  have hy := (lo32 y).isLt
  rw [BitVec.toNat_sub, ← lo32_toNat, ← lo32_toNat]
  congr 1
  omega

theorem and_eq_ofNat (x y : Word) : x &&& y = BitVec.ofNat 64 (x.toNat &&& y.toNat) := by
  rw [← BitVec.toNat_and, BitVec.ofNat_toNat, BitVec.setWidth_eq]

theorem or_eq_ofNat (x y : Word) : x ||| y = BitVec.ofNat 64 (x.toNat ||| y.toNat) := by
  rw [← BitVec.toNat_or, BitVec.ofNat_toNat, BitVec.setWidth_eq]

theorem xor_eq_ofNat (x y : Word) : x ^^^ y = BitVec.ofNat 64 (x.toNat ^^^ y.toNat) := by
  rw [← BitVec.toNat_xor, BitVec.ofNat_toNat, BitVec.setWidth_eq]

theorem and_not_eq_ofNat (x y : Word) : x &&& ~~~y = BitVec.ofNat 64 (x.toNat &&& (2 ^ 64 - 1 - y.toNat)) := by
  rw [and_eq_ofNat, BitVec.toNat_not]

theorem or_not_eq_ofNat (x y : Word) : x ||| ~~~y = BitVec.ofNat 64 (x.toNat ||| (2 ^ 64 - 1 - y.toNat)) := by
  rw [or_eq_ofNat, BitVec.toNat_not]

/-! ### Shifts and rotations (R123) -/

theorem shiftLeft_eq_low64 (x : Word) (n : Nat) : x <<< n = low64 (x.toNat * 2 ^ n) := by
  refine BitVec.eq_of_toNat_eq ?_
  rw [BitVec.toNat_shiftLeft, Nat.shiftLeft_eq]
  exact_mod_cast (BitVec.toNat_ofNat ..).symm

theorem ushiftRight_eq_ofNat (x : Word) (n : Nat) : x >>> n = BitVec.ofNat 64 (x.toNat / 2 ^ n) := by
  rw [← Nat.shiftRight_eq_div_pow, ← BitVec.toNat_ushiftRight, BitVec.ofNat_toNat, BitVec.setWidth_eq]

/-- The cap on the count of SHA and SHAW. -/
theorem ite_lt_eq_min (n m : Nat) : (if m < n then m else n) = min n m := by
  split <;> omega

theorem shlV_eq (x : Word) (n : Nat) : shlV x n = if 64 ≤ n then 0 else low64 (x.toNat * 2 ^ n) := by
  rw [shlV, shiftLeft_eq_low64]

theorem shrV_eq (x : Word) (n : Nat) : shrV x n = if 64 ≤ n then 0 else BitVec.ofNat 64 (x.toNat / 2 ^ n) := by
  rw [shrV, ushiftRight_eq_ofNat]

theorem shaV_eq (x : Word) (n : Nat) : shaV x n = low64 (x.toInt / 2 ^ (min n 63)) := by
  rw [shaV, ite_lt_eq_min, BitVec.sshiftRight, Int.shiftRight_eq_div_pow, low64]
  norm_cast

theorem rotlV_eq (x : Word) (n : Nat) :
    rotlV x n = BitVec.ofNat 64 (x.toNat * 2 ^ (n % 64) % 2 ^ 64 ||| x.toNat / 2 ^ (64 - n % 64)) := by
  rw [rotlV, or_eq_ofNat, BitVec.toNat_shiftLeft, BitVec.toNat_ushiftRight, Nat.shiftLeft_eq, Nat.shiftRight_eq_div_pow]

theorem shlwV_eq (x : Word) (n : Nat) : shlwV x n = if 32 ≤ n then 0 else sext32 (low32 x * 2 ^ n) := by
  rw [shlwV]
  split
  · rfl
  · exact sextLow_eq_sext32 (by rw [BitVec.toNat_shiftLeft, lo32_toNat, Nat.shiftLeft_eq])

theorem shrwV_eq (x : Word) (n : Nat) : shrwV x n = if 32 ≤ n then 0 else sext32 (low32 x / 2 ^ n) := by
  rw [shrwV]
  split
  · rfl
  · refine sextLow_eq_sext32 ?_
    rw [← lo32_toNat, ← Nat.shiftRight_eq_div_pow, ← BitVec.toNat_ushiftRight, Nat.mod_eq_of_lt (BitVec.isLt _)]

theorem shawV_eq (x : Word) (n : Nat) : shawV x n = low64 (sgn32 x / 2 ^ (min n 31)) := by
  rw [shawV, sextLow_eq_low64, ite_lt_eq_min, BitVec.toInt_sshiftRight, Int.shiftRight_eq_div_pow, lo32_toInt]
  norm_cast

theorem rotlwV_eq (x : Word) (n : Nat) :
    rotlwV x n = sext32 (low32 x * 2 ^ (n % 32) % 2 ^ 32 ||| low32 x / 2 ^ (32 - n % 32)) := by
  refine sextLow_eq_sext32 ?_
  rw [← lo32_toNat, ← Nat.shiftLeft_eq, ← Nat.shiftRight_eq_div_pow, ← BitVec.toNat_shiftLeft,
    ← BitVec.toNat_ushiftRight, ← BitVec.toNat_or, Nat.mod_eq_of_lt (BitVec.isLt _)]

/-! ### Comparisons and selections (R125) -/

theorem flagW_decide (p : Prop) [Decidable p] : flagW (decide p) = rel p := by
  simp only [flagW, rel, decide_eq_true_eq]

theorem flagW_slt (x y : Word) : flagW (x.slt y) = rel (x.toInt < y.toInt) := flagW_decide _

theorem flagW_ult (x y : Word) : flagW (x.ult y) = rel (x.toNat < y.toNat) := flagW_decide _

theorem flagW_beq (x y : Word) : flagW (x == y) = rel (x.toNat = y.toNat) := by
  simp only [flagW, rel, beq_iff_eq, BitVec.toNat_inj]

theorem flagW_bne (x y : Word) : flagW (x != y) = rel (x.toNat ≠ y.toNat) := by
  simp only [flagW, rel, bne_iff_ne, ne_eq, BitVec.toNat_inj]

theorem ite_sle_eq_min (x y : Word) : (if x.sle y then x else y) = low64 (min x.toInt y.toInt) := by
  simp only [Int.min_def, BitVec.sle, decide_eq_true_eq, apply_ite low64, low64_toInt]

theorem ite_sle_eq_max (x y : Word) : (if x.sle y then y else x) = low64 (max x.toInt y.toInt) := by
  simp only [Int.max_def, BitVec.sle, decide_eq_true_eq, apply_ite low64, low64_toInt]

theorem ite_ule_eq_min (x y : Word) : (if x.ule y then x else y) = BitVec.ofNat 64 (min x.toNat y.toNat) := by
  simp only [Nat.min_def, BitVec.ule, decide_eq_true_eq, apply_ite (BitVec.ofNat 64), BitVec.ofNat_toNat, BitVec.setWidth_eq]

theorem ite_ule_eq_max (x y : Word) : (if x.ule y then y else x) = BitVec.ofNat 64 (max x.toNat y.toNat) := by
  simp only [Nat.max_def, BitVec.ule, decide_eq_true_eq, apply_ite (BitVec.ofNat 64), BitVec.ofNat_toNat, BitVec.setWidth_eq]

/-! ### Scratchpad addresses (R127) -/

theorem spaV_eq (x y : Word) : spaV x y = BitVec.ofNat 64 (2 ^ 63 + x.toNat % 2 ^ 12 * 2 ^ 19 + y.toNat % 2 ^ 19) := by
  simp only [spaV, bits, Nat.pow_zero, Nat.div_one]

theorem spxV_eq (x : Word) : spxV x =
    if 2 ^ 63 ≤ x.toNat ∧ x.toNat < 2 ^ 63 + 2 ^ 31 then BitVec.ofNat 64 (x.toNat / 2 ^ 19 % 2 ^ 12) else low64 (-1) := by
  have htop : bit x 63 = decide (2 ^ 63 ≤ x.toNat) := by
    rw [bit, ← BitVec.msb_eq_getLsbD_last, BitVec.msb_eq_decide]
  have hpad : (bit x 63 && bits x 31 32 == 0) = true ↔ 2 ^ 63 ≤ x.toNat ∧ x.toNat < 2 ^ 63 + 2 ^ 31 := by
    have hx := x.isLt
    simp only [htop, bits, Bool.and_eq_true, decide_eq_true_eq, beq_iff_eq]
    omega
  simp only [spxV, hpad]
  rfl

/-! ### Bit counts and byte order (R131) -/

theorem bitlen_le_iff (v n : Nat) : bitlen v ≤ n ↔ v < 2 ^ n := by
  rw [bitlen]
  split
  next hv => exact ⟨fun _ => hv ▸ Nat.two_pow_pos n, fun _ => Nat.zero_le n⟩
  next hv => rw [Nat.succ_le_iff, Nat.log2_lt hv]

theorem clzNat_eq (n v : Nat) : clzNat n v = n - bitlen (v % 2 ^ n) := by
  induction n with
  | zero => simp [clzNat]
  | succ n ih =>
    have hlen := bitlen_le_iff (v % 2 ^ (n + 1)) n
    rw [clzNat]
    split
    · omega
    · have hv : v % 2 ^ n = v % 2 ^ (n + 1) := by
        rw [← Nat.mod_mod_of_dvd v (Nat.pow_dvd_pow 2 (Nat.le_add_right n 1)), Nat.mod_eq_of_lt (by omega)]
      rw [ih, hv]
      omega

theorem ctzNat_le (n v : Nat) : ctzNat n v ≤ n := by
  induction n generalizing v with
  | zero => exact Nat.le_refl 0
  | succ n ih =>
    have := ih (v / 2)
    rw [ctzNat]
    split <;> omega

theorem ctzNat_eq (n v : Nat) : ctzNat n v = ((List.range n).find? (fun k => v.testBit k)).getD n := by
  induction n generalizing v with
  | zero => rfl
  | succ n ih =>
    rw [ctzNat, List.range_succ_eq_map, List.find?_cons, List.find?_map, Nat.testBit_zero, ih]
    split
    · simp [*]
    · simp only [*, decide_false, Function.comp_def, Nat.succ_eq_add_one, Nat.testBit_succ]
      cases List.find? (fun k => (v / 2).testBit k) (List.range n) <;> simp [Nat.add_comm]

theorem popNat_eq (n v : Nat) : popNat n v = ((List.range n).filter (fun k => v.testBit k)).length := by
  induction n generalizing v with
  | zero => rfl
  | succ n ih =>
    rw [popNat, List.range_succ_eq_map, List.filter_cons, List.filter_map, Nat.testBit_zero, ih]
    simp only [Function.comp_def, Nat.succ_eq_add_one, Nat.testBit_succ]
    rcases Nat.mod_two_eq_zero_or_one v with h | h <;> simp [h, Nat.add_comm]

theorem revNat_eq (n v : Nat) : revNat n v = mirror n v := by
  induction n generalizing v with
  | zero => rfl
  | succ n ih =>
    rw [revNat, mirror, List.range_succ_eq_map, List.map_cons, List.map_map, List.sum_cons, ih, mirror]
    congr 1
    · rcases Nat.mod_two_eq_zero_or_one v with h | h <;> simp [h, Nat.testBit_zero]
    · simp [Function.comp_def, Nat.testBit_succ, Nat.sub_sub, Nat.add_comm]

@[simp] theorem leBytes_length (n v : Nat) : (leBytes n v).length = n := by
  induction n generalizing v with
  | zero => rfl
  | succ n ih => rw [leBytes, List.length_cons, ih]

theorem leNat_append (l : List Byte) (b : Byte) : leNat (l ++ [b]) = leNat l + b.toNat * 256 ^ l.length := by
  induction l with
  | nil => simp [leNat]
  | cons c l ih =>
    have hpow : b.toNat * 256 ^ (l.length + 1) = 256 * (b.toNat * 256 ^ l.length) := by
      rw [Nat.pow_succ', Nat.mul_left_comm]
    simp only [List.cons_append, leNat, ih, List.length_cons, hpow]
    omega

/-- A sum over a list depends on the terms of its entries only. -/
theorem foldl_congr_mem {f g : Nat → Nat → Nat} {l : List Nat} (h : ∀ m, ∀ k ∈ l, f m k = g m k) (z : Nat) :
    l.foldl f z = l.foldl g z :=
  List.foldl_rel rfl fun k hk m _ hm => hm ▸ h m k hk

/-- The bytes of a number in reverse: byte k of the result is byte n - 1 - k of the number. -/
theorem leNat_reverse_leBytes (n v : Nat) : leNat (leBytes n v).reverse
    = (List.range n).foldl (fun m k => m + v / 256 ^ (n - 1 - k) % 256 * 256 ^ k) 0 := by
  induction n generalizing v with
  | zero => rfl
  | succ n ih =>
    have hbyte : ∀ m, ∀ k ∈ List.range n,
        m + v / 256 / 256 ^ (n - 1 - k) % 256 * 256 ^ k = m + v / 256 ^ (n + 1 - 1 - k) % 256 * 256 ^ k := by
      intro m k hk
      have hk := List.mem_range.1 hk
      rw [Nat.div_div_eq_div_mul, ← Nat.pow_succ', show (n - 1 - k).succ = n + 1 - 1 - k by omega]
    rw [leBytes, List.reverse_cons, leNat_append, ih, List.length_reverse, leBytes_length, List.range_succ,
      List.foldl_append, foldl_congr_mem hbyte 0]
    simp

theorem testBit_lo32 {x : Word} {k : Nat} (h : k ∈ List.range 32) : (lo32 x).toNat.testBit k = x.toNat.testBit k := by
  rw [lo32_toNat, low32, Nat.testBit_mod_two_pow, decide_eq_true (List.mem_range.1 h), Bool.true_and]

theorem clzV_eq (x : Word) : clzV x = BitVec.ofNat 64 (64 - bitlen x.toNat) := by
  rw [clzV, clzNat_eq, Nat.mod_eq_of_lt x.isLt]

theorem clzwV_eq (x : Word) : clzwV x = BitVec.ofNat 64 (32 - bitlen (low32 x)) := by
  rw [clzwV, clzNat_eq, Nat.mod_eq_of_lt (BitVec.isLt _), lo32_toNat, sextLow_count (Nat.sub_le ..)]

theorem ctzV_eq (x : Word) :
    ctzV x = BitVec.ofNat 64 (((List.range 64).find? (fun k => x.toNat.testBit k)).getD 64) := by
  rw [ctzV, ctzNat_eq]

theorem ctzwV_eq (x : Word) :
    ctzwV x = BitVec.ofNat 64 (((List.range 32).find? (fun k => x.toNat.testBit k)).getD 32) := by
  rw [ctzwV, sextLow_count (ctzNat_le ..), ctzNat_eq, ← List.head?_filter, List.filter_congr fun _ => testBit_lo32, List.head?_filter]

theorem popV_eq (x : Word) : popV x = BitVec.ofNat 64 ((List.range 64).filter (fun k => x.toNat.testBit k)).length := by
  rw [popV, popNat_eq]

theorem popwV_eq (x : Word) : popwV x = BitVec.ofNat 64 ((List.range 32).filter (fun k => x.toNat.testBit k)).length := by
  rw [popwV, popNat_eq, List.filter_congr fun _ => testBit_lo32, sextLow_count]
  exact Nat.le_trans (List.length_filter_le ..) (Nat.le_of_eq List.length_range)

theorem brevV_eq (x : Word) : brevV x = BitVec.ofNat 64 (mirror 64 x.toNat) := by
  rw [brevV, revNat_eq]

theorem brevwV_eq (x : Word) : brevwV x = sext32 (mirror 32 (low32 x)) := by
  rw [brevwV, revNat_eq, lo32_toNat, sextLow_ofNat]

theorem bswapV_eq (x : Word) : bswapV x =
    BitVec.ofNat 64 ((List.range 8).foldl (fun n k => n + x.toNat / 256 ^ (7 - k) % 256 * 256 ^ k) 0) := by
  rw [bswapV, leNat_reverse_leBytes]

theorem bswapwV_eq (x : Word) : bswapwV x =
    sext32 ((List.range 4).foldl (fun n k => n + x.toNat / 256 ^ (3 - k) % 256 * 256 ^ k) 0) := by
  have hbyte : ∀ m, ∀ k ∈ List.range 4, m + low32 x / 256 ^ (4 - 1 - k) % 256 * 256 ^ k
      = m + x.toNat / 256 ^ (3 - k) % 256 * 256 ^ k := by
    intro m k hk
    have hk := List.mem_range.1 hk
    obtain rfl | rfl | rfl | rfl : k = 0 ∨ k = 1 ∨ k = 2 ∨ k = 3 := by omega
    all_goals
      rw [low32]
      omega
  rw [bswapwV, leNat_reverse_leBytes, lo32_toNat, foldl_congr_mem hbyte 0, sextLow_ofNat]

/-! ### Immediates (R132, R133) -/

theorem simm_eq_low64 (i : BitVec 16) : simm i = low64 i.toInt := rfl

@[simp] theorem simm_toInt (i : BitVec 16) : (simm i).toInt = i.toInt := BitVec.toInt_signExtend_of_le (by decide)

@[simp] theorem zimm_toNat (i : BitVec 16) : (zimm i).toNat = i.toNat := by
  rw [zimm, BitVec.zeroExtend, BitVec.toNat_setWidth_of_le (by decide)]

theorem add_simm (x : Word) (i : BitVec 16) : x + simm i = low64 ((x.toNat : Int) + i.toInt) := by
  rw [low64_add, low64_toNat, simm_eq_low64]

theorem and_zimm (x : Word) (i : BitVec 16) : x &&& zimm i = BitVec.ofNat 64 (x.toNat &&& i.toNat) := by
  rw [and_eq_ofNat, zimm_toNat]

theorem or_zimm (x : Word) (i : BitVec 16) : x ||| zimm i = BitVec.ofNat 64 (x.toNat ||| i.toNat) := by
  rw [or_eq_ofNat, zimm_toNat]

theorem xor_zimm (x : Word) (i : BitVec 16) : x ^^^ zimm i = BitVec.ofNat 64 (x.toNat ^^^ i.toNat) := by
  rw [xor_eq_ofNat, zimm_toNat]

theorem flagW_slt_simm (x : Word) (i : BitVec 16) : flagW (x.slt (simm i)) = rel (x.toInt < i.toInt) := by
  simp only [flagW_slt, simm_toInt]

theorem flagW_ult_zimm (x : Word) (i : BitVec 16) : flagW (x.ult (zimm i)) = rel (x.toNat < i.toNat) := by
  simp only [flagW_ult, zimm_toNat]

theorem zimm_shiftLeft (i : BitVec 16) : zimm i <<< 16 = BitVec.ofNat 64 (i.toNat * 2 ^ 16) := by
  rw [shiftLeft_eq_low64, zimm_toNat]
  exact_mod_cast low64_natCast _

theorem sextLow_lo32_add_simm (x : Word) (i : BitVec 16) :
    sextLow (lo32 (x + simm i)) = sext32 (((x.toNat : Int) + i.toInt) % 2 ^ 32).toNat := by
  rw [add_simm, lo32_low64, sextLow_ofNat]

/-! ### Bit fields (R134) -/

theorem sextW_eq_low64 {n : Nat} (v : Nat) (h : n ≤ 64) : sextW (v % 2 ^ n) n = low64 (signedOf v n) := by
  have hle : 2 ^ n ≤ 2 ^ 64 := Nat.pow_le_pow_right (by decide) h
  simp only [sextW, signedOf, Nat.mod_mod]
  split
  · have hwrap : low64 ((2 ^ 64 : Nat) : Int) = 0#64 := rfl
    rw [← low64_natCast, Int.natCast_add, Int.ofNat_sub hle, low64_add, low64_sub, hwrap, low64_sub, BitVec.zero_sub,
      ← BitVec.sub_eq_add_neg]
    norm_cast
  · exact_mod_cast (low64_natCast _).symm

theorem extxV_eq (x : Word) (p l : BitVec 6) : extxV x p l = low64 (signedOf (x.toNat / 2 ^ p.toNat) (l.toNat + 1)) :=
  sextW_eq_low64 _ (by omega)

/-- A field of n bits in its place at p fits in p + n bits. -/
theorem mul_two_pow_lt {a p n w : Nat} (ha : a < 2 ^ n) (h : p + n ≤ w) : a * 2 ^ p < 2 ^ w :=
  calc a * 2 ^ p < 2 ^ n * 2 ^ p := Nat.mul_lt_mul_of_pos_right ha (Nat.two_pow_pos p)
    _ = 2 ^ (p + n) := by rw [Nat.pow_add, Nat.mul_comm]
    _ ≤ 2 ^ w := Nat.pow_le_pow_right (by decide) h

/-- A word keeps a field of n bits in its place at p. -/
theorem toNat_field {a p n : Nat} (ha : a < 2 ^ n) (h : p + n ≤ 64) : (BitVec.ofNat 64 (a * 2 ^ p)).toNat = a * 2 ^ p := by
  rw [BitVec.toNat_ofNat, Nat.mod_eq_of_lt (mul_two_pow_lt ha h)]

/-- The m of R134: n ones at p. -/
def fieldMask (p n : Nat) : Word := BitVec.ofNat 64 ((2 ^ n - 1) * 2 ^ p)

theorem fieldMask_toNat {p n : Nat} (h : p + n ≤ 64) : (fieldMask p n).toNat = (2 ^ n - 1) * 2 ^ p :=
  toNat_field (Nat.sub_lt (Nat.two_pow_pos n) Nat.one_pos) h

/-- Under a mask of n ones at p stand the n bits from p on, in their place. -/
theorem and_ones_at (c p n : Nat) : c &&& (2 ^ n - 1) * 2 ^ p = c / 2 ^ p % 2 ^ n * 2 ^ p := by
  rw [← Nat.and_two_pow_sub_one_eq_mod, ← Nat.shiftLeft_eq, ← Nat.shiftLeft_eq, ← Nat.shiftRight_eq_div_pow]
  refine Nat.eq_of_testBit_eq fun i => ?_
  simp only [Nat.testBit_and, Nat.testBit_shiftLeft, Nat.testBit_shiftRight]
  by_cases h : p ≤ i <;> simp [h]

theorem and_fieldMask {p n : Nat} (h : p + n ≤ 64) (c : Word) :
    c &&& fieldMask p n = BitVec.ofNat 64 (c.toNat / 2 ^ p % 2 ^ n * 2 ^ p) := by
  rw [and_eq_ofNat, fieldMask_toNat h, and_ones_at]

theorem field_and_fieldMask {a p n : Nat} (ha : a < 2 ^ n) (h : p + n ≤ 64) :
    BitVec.ofNat 64 (a * 2 ^ p) &&& fieldMask p n = BitVec.ofNat 64 (a * 2 ^ p) := by
  rw [and_fieldMask h, toNat_field ha h, Nat.mul_div_cancel _ (Nat.two_pow_pos p), Nat.mod_eq_of_lt ha]

theorem and_not_and_and_eq_zero (c x m : Word) : (c &&& ~~~m) &&& (x &&& m) = 0#64 := by
  ext k
  simp only [BitVec.getElem_and, BitVec.getElem_not, BitVec.getElem_zero]
  cases m[k] <;> simp

/-- Clearing the bits under a mask takes their value off. -/
theorem and_not_eq_sub (c m : Word) : c &&& ~~~m = c - (c &&& m) := by
  rw [BitVec.eq_sub_iff_add_eq]
  rw [BitVec.add_eq_or_of_and_eq_zero _ _ (and_not_and_and_eq_zero c c m), ← BitVec.and_or_distrib_left, BitVec.or_comm,
    BitVec.or_not_self, BitVec.and_allOnes]

/-- Bits that lie under a mask are added where the mask was cleared. -/
theorem and_not_or_eq_sub_add {c m w : Word} (hw : w &&& m = w) : (c &&& ~~~m) ||| w = c - (c &&& m) + w := by
  have hdisj : (c &&& ~~~m) &&& w = 0#64 := by rw [← hw, and_not_and_and_eq_zero]
  rw [← BitVec.add_eq_or_of_and_eq_zero _ _ hdisj, and_not_eq_sub]

theorem insV_eq_or (c x : Word) (p l : BitVec 6) : insV c x p l =
    (c &&& ~~~fieldMask p.toNat (l.toNat + 1)) ||| BitVec.ofNat 64 (x.toNat % 2 ^ (l.toNat + 1) * 2 ^ p.toNat) := by
  simp only [insV, fieldMask, bits, Nat.pow_zero, Nat.div_one]

/-- INS within 64 bits: the field's old value goes, and the low bits of x come in its place. -/
theorem insV_eq {p l : BitVec 6} (h : p.toNat + l.toNat + 1 ≤ 64) (c x : Word) : insV c x p l =
    low64 ((c.toNat : Int) - ((c.toNat / 2 ^ p.toNat % 2 ^ (l.toNat + 1) : Nat) : Int) * 2 ^ p.toNat
        + ((x.toNat % 2 ^ (l.toNat + 1) : Nat) : Int) * 2 ^ p.toNat) := by
  have hfit : p.toNat + (l.toNat + 1) ≤ 64 := h
  have hlow : x.toNat % 2 ^ (l.toNat + 1) < 2 ^ (l.toNat + 1) := Nat.mod_lt _ (Nat.two_pow_pos _)
  rw [insV_eq_or, and_not_or_eq_sub_add (field_and_fieldMask hlow hfit), and_fieldMask hfit, low64_add, low64_sub, low64_toNat,
    ← low64_natCast, ← low64_natCast]
  norm_cast

/-- SEL (R126). -/
theorem ite_bne_zero (c x y : Word) : (if c != 0 then x else y) = if c.toNat ≠ 0 then x else y := by
  simp only [bne_iff_ne, ne_eq, ← BitVec.toNat_inj, BitVec.ofNat_eq_ofNat, BitVec.toNat_ofNat, Nat.zero_mod]

/-! ### Each instruction is a read, the rule's value, and a write -/

/-- Two result functions that agree make one instruction. -/
theorem alu2_of_value {i : Instr} {d a b : Reg} {f g : Word → Word → Word} {q : AluForm} {s : State}
    (hq : some ⟨d, a, b, g⟩ = some q) (hv : ∀ x y, f x y = g x y) : alu2 i d a b f s = alu2 i q.d q.a q.b q.f s := by
  cases hq
  rw [funext fun x => funext (hv x)]

/-- The same for an instruction of one operand: its slot b is zr. -/
theorem alu1_of_value {i : Instr} {d a : Reg} {f g : Word → Word} {q : AluForm} {s : State}
    (hq : some ⟨d, a, .zr, fun x _ => g x⟩ = some q) (hv : ∀ x, f x = g x) : alu1 i d a f s = alu2 i q.d q.a q.b q.f s :=
  alu2_of_value hq fun x _ => hv x

/-- The same for SEL and INS, which also read the old d. -/
theorem alu3_of_value {i : Instr} {d a b : Reg} {f g : Word → Word → Word → Word} {q : AluForm3} {s : State}
    (hq : some ⟨d, a, b, g⟩ = some q) (hv : ∀ c x y, f c x y = g c x y) : alu3 i d a b f s = alu3 i q.d q.a q.b q.f s := by
  cases hq
  rw [funext fun c => funext fun x => funext (hv c x)]

theorem exec_of_aluForm {i : Instr} {q : AluForm} (h : aluForm i = some q) (s : State) :
    exec i s = alu2 i q.d q.a q.b q.f s := by
  cases i
  case add => exact alu2_of_value h add_eq_low64
  case addw => exact alu2_of_value h w32_add
  case sub => exact alu2_of_value h sub_eq_low64
  case subw => exact alu2_of_value h w32_sub
  case andR => exact alu2_of_value h and_eq_ofNat
  case orR => exact alu2_of_value h or_eq_ofNat
  case xorR => exact alu2_of_value h xor_eq_ofNat
  case andn => exact alu2_of_value h and_not_eq_ofNat
  case orn => exact alu2_of_value h or_not_eq_ofNat
  case shl => exact alu2_of_value h fun x y => shlV_eq x y.toNat
  case shlw => exact alu2_of_value h fun x y => lo32_toNat y ▸ shlwV_eq x (lo32 y).toNat
  case shr => exact alu2_of_value h fun x y => shrV_eq x y.toNat
  case shrw => exact alu2_of_value h fun x y => lo32_toNat y ▸ shrwV_eq x (lo32 y).toNat
  case sha => exact alu2_of_value h fun x y => shaV_eq x y.toNat
  case shaw => exact alu2_of_value h fun x y => lo32_toNat y ▸ shawV_eq x (lo32 y).toNat
  case rotl => exact alu2_of_value h fun x y => rotlV_eq x y.toNat
  case rotlw => exact alu2_of_value h fun x y => lo32_toNat y ▸ rotlwV_eq x (lo32 y).toNat
  case slt => exact alu2_of_value h flagW_slt
  case sltn => exact alu2_of_value h flagW_ult
  case seq => exact alu2_of_value h flagW_beq
  case sne => exact alu2_of_value h flagW_bne
  case min => exact alu2_of_value h ite_sle_eq_min
  case max => exact alu2_of_value h ite_sle_eq_max
  case minn => exact alu2_of_value h ite_ule_eq_min
  case maxn => exact alu2_of_value h ite_ule_eq_max
  all_goals cases h

theorem exec_of_fieldForm {i : Instr} {q : AluForm} (h : fieldForm i = some q) (s : State) :
    exec i s = alu2 i q.d q.a q.b q.f s := by
  cases i
  case shli d a n h' =>
    have hn : ¬ 64 ≤ shCount n h' := by rw [shCount]; omega
    exact alu1_of_value h fun x => (shlV_eq x _).trans (if_neg hn)
  case shliw d a n => exact alu1_of_value h fun x => (shlwV_eq x n.toNat).trans (if_neg (by omega))
  case shri d a n h' =>
    have hn : ¬ 64 ≤ shCount n h' := by rw [shCount]; omega
    exact alu1_of_value h fun x => (shrV_eq x _).trans (if_neg hn)
  case shriw d a n => exact alu1_of_value h fun x => (shrwV_eq x n.toNat).trans (if_neg (by omega))
  case shai d a n h' =>
    have hn : min (shCount n h') 63 = shCount n h' := by rw [shCount]; omega
    exact alu1_of_value h fun x => by rw [shaV_eq, hn, shCount]
  case shaiw d a n =>
    have hn : min n.toNat 31 = n.toNat := by omega
    exact alu1_of_value h fun x => by rw [shawV_eq, hn]
  case spa => exact alu2_of_value h spaV_eq
  case spx => exact alu1_of_value h spxV_eq
  case clz => exact alu1_of_value h clzV_eq
  case clzw => exact alu1_of_value h clzwV_eq
  case ctz => exact alu1_of_value h ctzV_eq
  case ctzw => exact alu1_of_value h ctzwV_eq
  case pop => exact alu1_of_value h popV_eq
  case popw => exact alu1_of_value h popwV_eq
  case brev => exact alu1_of_value h brevV_eq
  case brevw => exact alu1_of_value h brevwV_eq
  case bswap => exact alu1_of_value h bswapV_eq
  case bswapw => exact alu1_of_value h bswapwV_eq
  case addi d a i => exact alu1_of_value h fun x => add_simm x i
  case andi d a i => exact alu1_of_value h fun x => and_zimm x i
  case ori d a i => exact alu1_of_value h fun x => or_zimm x i
  case xori d a i => exact alu1_of_value h fun x => xor_zimm x i
  case slti d a i => exact alu1_of_value h fun x => flagW_slt_simm x i
  case sltni d a i => exact alu1_of_value h fun x => flagW_ult_zimm x i
  case li d i => exact alu1_of_value h fun _ => simm_eq_low64 i
  case lih d i => exact alu1_of_value h fun _ => zimm_shiftLeft i
  case addiw d a i => exact alu1_of_value h fun x => sextLow_lo32_add_simm x i
  case ext => exact alu1_of_value h fun _ => rfl
  case extx d a p l => exact alu1_of_value h fun x => extxV_eq x p l
  all_goals cases h

/-- Well-formed SEL and INS name no port as d. -/
theorem dstOk_of_mergeForm {i : Instr} {q : AluForm3} (h : mergeForm i = some q) (hwf : i.wf = true) : q.d.dstOk = true := by
  cases i
  case sel => cases h; exact hwf
  case ins => cases h; exact (Bool.and_eq_true_iff.mp hwf).1
  all_goals cases h

theorem exec_sel (d a b : Reg) (s : State) :
    exec (.sel d a b) s = alu3 (.sel d a b) d a b (fun c x y => if c != 0 then x else y) s := rfl

theorem exec_ins (d a : Reg) (p l : BitVec 6) (s : State) :
    exec (.ins d a p l) s = alu3 (.ins d a p l) d a .zr (fun c x _ => insV c x p l) s := rfl

theorem exec_of_mergeForm {i : Instr} {q : AluForm3} (h : mergeForm i = some q) (hwf : i.wf = true) (s : State) :
    exec i s = alu3 i q.d q.a q.b q.f s := by
  cases i
  case sel => rw [exec_sel]; exact alu3_of_value h ite_bne_zero
  case ins d a p l =>
    have hpl : p.toNat + l.toNat + 1 ≤ 64 := of_decide_eq_true (Bool.and_eq_true_iff.mp hwf).2
    rw [exec_ins]
    exact alu3_of_value h fun c x _ => insV_eq hpl c x
  all_goals cases h

/-- When operands are there, and what they are (R70, R74, R121). -/
theorem State.operands_ok_iff {s u : State} {a b d : Reg} {x y : Word} : s.operands a b d = .ok u x y ↔
    (s.badPort a = false ∧ s.badPort b = false ∧ s.badPort d = false) ∧ (s.lateReg a = none ∧ s.lateReg b = none)
      ∧ s.lanesReady s.cur (some a) (some b) (some d) = true
      ∧ ((s.readOp a).2.readOp b).2 = u ∧ (s.readOp a).1 = x ∧ ((s.readOp a).2.readOp b).1 = y := by
  rw [State.operands]
  repeat' split
  all_goals simp_all

/-- A destination that is no port asks nothing of the operands. -/
theorem State.operands_ok_of_dstOk {s u : State} {a b d : Reg} {x y : Word} (hd : d.dstOk = true)
    (h : s.operands a b d = .ok u x y) : s.operands a b .zr = .ok u x y := by
  rw [State.operands_ok_iff] at h ⊢
  cases d
  case g => exact h
  case zr => exact h
  all_goals cases hd

/-! ### What an instruction of the integer unit does once its operands are there -/

theorem alu2_next {i : Instr} {d a b : Reg} {f : Word → Word → Word} {s u : State} {x y : Word}
    (ho : s.operands a b d = .ok u x y) (hs : s.Signed i false) :
    alu2 i d a b f s = .next (s.ended i (u.put d (f x y))) := by
  rw [alu2, State.withOps_ok _ ho, State.done_next hs]

theorem alu3_late {i : Instr} {d a b : Reg} {f : Word → Word → Word → Word} {s : State} {n : Fin 16}
    (hl : s.lateReg d = some n) :
    alu3 i d a b f s = .next (s.withMe (fun c => { c with run := .waiting (.operand n) })) := by
  simp only [alu3, hl, State.waitFor]

theorem alu3_next {i : Instr} {d a b : Reg} {f : Word → Word → Word → Word} {s u : State} {x y : Word}
    (hl : s.lateReg d = none) (ho : s.operands a b .zr = .ok u x y) (hs : s.Signed i false) :
    alu3 i d a b f s = .next (s.ended i (u.put d (f (s.plain d) x y))) := by
  simp only [alu3, hl]
  rw [State.withOps_ok _ ho, State.done_next hs]

/-- Settles O15: every two-operand instruction is a read, the rule's value and a write, with nothing against its end. -/
theorem integerUnitResults : Obligations.IntegerUnitResults := by
  intro i q s u x y hq ho hs
  rw [exec_of_aluForm hq, alu2_next ho hs]

/-- Settles O16: the same for the one-operand forms; SEL and INS are that with the old d as a third operand. -/
theorem countFieldAndImmediateResults : Obligations.CountFieldAndImmediateResults := by
  refine ⟨fun i q s u x y hq ho hs => ?_, fun i q s u x y hq hwf => ?_⟩
  · rw [exec_of_fieldForm hq, alu2_next ho hs]
  · rw [exec_of_mergeForm hq hwf]
    exact ⟨fun n hl => alu3_late hl, fun hl ho hs => alu3_next hl (State.operands_ok_of_dstOk (dstOk_of_mergeForm hq hwf) ho) hs⟩

end Sys2Proof.Machine
